-- ==== Sys2Proof/Word.lean ====
section
/-! DEFINITION. Sys2Proof/Word.lean: the word types of the Belcira 640's messages and counters. -/

namespace Sys2Proof

/-- One serial character's eight data bits (R1). -/
abbrev Byte := BitVec 8

/-- A two-byte message field, before its signedness is read (R194). -/
abbrev Half := BitVec 16

/-- A plant counter: 32 bits, wrapping silently (R189). -/
abbrev Count32 := BitVec 32

end Sys2Proof
end

