-- ==== Sys2Proof/Config.lean ====
section
/-! DEFINITION. Sys2Proof/Config.lean: what the manual fixes for every part (no setting changes these).
The manual leaves no arithmetic result open, so no opaque free value stands here; its one open choice, the
order in which the four runners take a mode change, is plain data in `Part.orders` (log entry 3). -/

namespace Sys2Proof.Config

/-- Slots of the record pool (R24). -/
def poolSlots : Nat := 48
/-- Longest list of one bay (R24). -/
def listMax : Nat := 20
/-- Places of a port's request buffer (R7). -/
def bufferMax : Nat := 2
/-- Longest argument of a request (R4). -/
def argMax : Nat := 24
/-- Compressor minimum on time, 60 s, in milliseconds (R136). -/
def onTimeMs : Nat := 60000
/-- Compressor minimum off time, 180 s, in milliseconds (R136). -/
def offTimeMs : Nat := 180000
/-- Feed stroke pulse, in milliseconds (R107). -/
def strokeMs : Nat := 400
/-- Heater output period, in milliseconds (R87). -/
def periodMs : Nat := 2000
/-- Samples of a trip input that make it ACTIVE (R147). -/
def tripOnRun : Nat := 20
/-- Samples of a trip input that make it INACTIVE (R147). -/
def tripOffRun : Nat := 500
/-- Differing 100 ms samples that change a probe reading: 2 s (R104). -/
def probeRun : Nat := 20

end Sys2Proof.Config
end

