-- ==== Sys2Proof/Syntax.lean ====
section
/-! DEFINITION. Sys2Proof/Syntax.lean: the commands of the Belcira 640, one constructor per row of
spec/opcode_table.json. A command is an event of the part: a character or a line event at a port, a request
taken from a port's buffer, or the expiry of one of the part's timers. Its operands are what the outside
world supplies at that event (log entry 1). -/

namespace Sys2Proof

/-- The four bays (R9, R11). -/
inductive Bay where
  | b1 | b2 | b3 | b4
deriving DecidableEq, Repr

/-- The five serial ports: the service port SP and the bay ports BP1 to BP4 (chapter 1). -/
inductive Port where
  | sp
  | bp (b : Bay)
deriving DecidableEq, Repr

/-- The five modulating loads: L0 on HEAT0, and L1 to L4 on HEAT1 to HEAT4 (R70). -/
inductive Load where
  | l0
  | bay (b : Bay)
deriving DecidableEq, Repr

/-- The five debounced trip inputs (R147). -/
inductive TripInput where
  | ovp | ovt | loww | tank | cond
deriving DecidableEq, Repr

/-- The two level electrodes (R104). -/
inductive Probe where
  | lo | hi
deriving DecidableEq, Repr

/-- What begins or ends a power-on reset (R195): the fall of RESETN, at which a reset begins; its rise, with the level of
RATESEL, at which the reset ends where the supply is valid; the power-up, from which the supply is not yet valid; and the
moment at which it is. -/
inductive ResetEdge where
  | falls
  | rises (ratesel : Bool)
  | powersUp
  | supplyValid
deriving DecidableEq, Repr

/-- The commands. Requests name the port they are taken on and carry their raw argument bytes, so that every
refusal of R9 to R11 has its command; voltage samples are in millivolts and temperature samples in
thousandths of a degree Celsius, as converted. -/
inductive Instr where
  /-- POWER_ON_RESET (R195), at an edge of RESETN or of the supply. -/
  | powerOnReset (edge : ResetEdge)
  /-- HEADER_RECEIVED (R4): a good character with marker 1. -/
  | headerReceived (p : Port) (code : Byte)
  /-- LENGTH_ABOVE_24 (R4): the length character of a message in assembly, above 24. -/
  | lengthAbove24 (p : Port) (len : Byte)
  /-- MESSAGE_COMPLETE (R4): the check byte of a message in assembly. -/
  | messageComplete (p : Port) (check : Byte)
  /-- CHARACTER_FRAMING_ERROR (R2). -/
  | characterFramingError (p : Port)
  /-- GAP_TIMEOUT (R5). -/
  | gapTimeout (p : Port)
  /-- BREAK (R12). -/
  | breakDetected (p : Port)
  /-- REPLY_END (R8): the stop bit of the reply's check byte has been sent. -/
  | replyEnd (p : Port)
  /-- FRAME_REPLY (R8): a FRAME entry holding this header code is taken. -/
  | frameReply (p : Port) (code : Byte)
  | append (p : Port) (args : List Byte)
  | withdraw (p : Port) (args : List Byte)
  | collect (p : Port) (args : List Byte)
  | runStart (p : Port) (args : List Byte)
  | runPause (p : Port) (args : List Byte)
  | runResume (p : Port) (args : List Byte)
  | runFinish (p : Port) (args : List Byte)
  | runAbort (p : Port) (args : List Byte)
  | bayAbort (p : Port) (args : List Byte)
  | closureReport (p : Port) (args : List Byte)
  | bayQuery (p : Port) (args : List Byte)
  | plantQuery (p : Port) (args : List Byte)
  | noteRead (p : Port) (args : List Byte)
  | noteAck (p : Port) (args : List Byte)
  | noteEnable (p : Port) (args : List Byte)
  | plantStart (p : Port) (args : List Byte)
  | plantHalt (p : Port) (args : List Byte)
  | plantRestart (p : Port) (args : List Byte)
  | manualEnter (p : Port) (args : List Byte)
  /-- MAN_DRIVE_HEAT (R92): the drive selector of one heater with a 16-bit duty. -/
  | manDriveHeat (p : Port) (heater : Load) (duty : Half)
  /-- MAN_DRIVE_FEED (R108): the FEED selector with a 16-bit count of strokes. -/
  | manDriveFeed (p : Port) (count : Half)
  | manDriveValveOpen (p : Port) (b : Bay)
  | manDriveValveClose (p : Port) (b : Bay)
  | manDriveCompOn (p : Port)
  | manDriveCompOff (p : Port)
  | manDriveDampOpen (p : Port) (b : Bay)
  | manDriveDampClose (p : Port) (b : Bay)
  | manualExit (p : Port) (args : List Byte)
  | cfgLive (p : Port) (args : List Byte)
  | cfgStage (p : Port) (args : List Byte)
  | cfgRead (p : Port) (args : List Byte)
  | cntRead (p : Port) (args : List Byte)
  | cntReadClear (p : Port) (args : List Byte)
  | ledgerRead (p : Port) (args : List Byte)
  | faultClear (p : Port) (args : List Byte)
  | runnerSecond (b : Bay)
  /-- ALLOCATOR_SECOND (R72): the VSENSE samples of the second just ended, in millivolts. -/
  | allocatorSecond (samples : List Nat)
  | heaterPeriodStart (l : Load)
  | heaterOnTimeEnd (l : Load)
  /-- BOILER_SECOND (R97): the T_BOIL samples of the second just ended, in thousandths of a degree. -/
  | boilerSecond (samples : List Int)
  | feedPulseEnd
  /-- PROBE_READING_CHANGE (R104): the probe's debounced reading becomes WET or DRY. -/
  | probeReadingChange (probe : Probe) (wet : Bool)
  | meteringSecond
  | sliceExpiry
  | purgeEnd
  /-- HOLD_EXPIRY (R132): the hold timers of these bays reach their hold lengths together. -/
  | holdExpiry (bays : List Bay)
  | compressorSecond
  | offTimerExpiry
  | onTimerExpiry
  /-- AIR_LOOP_SECOND (R141): the bay's T_AIR samples of the second just ended, in thousandths of a degree. -/
  | airLoopSecond (b : Bay) (samples : List Int)
  /-- TRIP_INPUT_CHANGE (R147): the input's debounced state becomes ACTIVE or INACTIVE. -/
  | tripInputChange (i : TripInput) (active : Bool)
  | tripUnitSecond
  /-- MARKER_0_CHARACTER (R4): a good character with marker 0. -/
  | marker0Character (p : Port) (byte : Byte)
  /-- RX_RETURNS_HIGH_AFTER_BREAK (R12). -/
  | rxReturnsHigh (p : Port)
deriving DecidableEq, Repr

end Sys2Proof
end

