-- ==== Sys2Proof/Decode.lean ====
section
/-! DEFINITION. Sys2Proof/Decode.lean: the command that a word of bits spells. The rows of spec/opcode_table.json give no
bits: a command is an event of the part, not a word, so no word spells one (log entry 19). The bytes of requests and
replies are decoded and formed by the ports (Machine/Requests.lean, Machine/PortCommands.lean). -/

namespace Sys2Proof

/-- No row of the table gives bits. -/
def decodeTableWord (_nbits _w : Nat) : Option Instr := none

end Sys2Proof
end

