-- ==== Sys2Proof/Machine/State.lean ====
section
/-! DEFINITION. Sys2Proof/Machine/State.lean: the state of the Belcira 640, block by block, and its value right
after power-on reset. Every field is plain data. INVENTORY.md lists the fields with the rules that name them.
Durations of running timers are kept in milliseconds; quantities that messages carry keep the manual's units. -/

namespace Sys2Proof.Machine

/-! ## One value per bay, per port, per load -/

/-- One value for each bay. -/
structure PerBay (α : Type) where
  b1 : α
  b2 : α
  b3 : α
  b4 : α
deriving DecidableEq, Repr

/-- One value for each port. -/
structure PerPort (α : Type) where
  sp : α
  bays : PerBay α
deriving DecidableEq, Repr

/-- One value for each of the loads L0 to L4. -/
structure PerLoad (α : Type) where
  l0 : α
  bays : PerBay α
deriving DecidableEq, Repr

/-- One value for each debounced trip input. -/
structure PerInput (α : Type) where
  ovp : α
  ovt : α
  loww : α
  tank : α
  cond : α
deriving DecidableEq, Repr

def PerBay.get {α : Type} (v : PerBay α) : Bay → α
  | .b1 => v.b1
  | .b2 => v.b2
  | .b3 => v.b3
  | .b4 => v.b4

def PerBay.set {α : Type} (v : PerBay α) (b : Bay) (x : α) : PerBay α :=
  match b with
  | .b1 => { v with b1 := x }
  | .b2 => { v with b2 := x }
  | .b3 => { v with b3 := x }
  | .b4 => { v with b4 := x }

def PerBay.all {α : Type} (x : α) : PerBay α := ⟨x, x, x, x⟩

def PerBay.map {α β : Type} (f : α → β) (v : PerBay α) : PerBay β := ⟨f v.b1, f v.b2, f v.b3, f v.b4⟩

def PerPort.get {α : Type} (v : PerPort α) : Port → α
  | .sp => v.sp
  | .bp b => v.bays.get b

def PerPort.set {α : Type} (v : PerPort α) (p : Port) (x : α) : PerPort α :=
  match p with
  | .sp => { v with sp := x }
  | .bp b => { v with bays := v.bays.set b x }

def PerPort.all {α : Type} (x : α) : PerPort α := ⟨x, .all x⟩

def PerLoad.get {α : Type} (v : PerLoad α) : Load → α
  | .l0 => v.l0
  | .bay b => v.bays.get b

def PerLoad.set {α : Type} (v : PerLoad α) (l : Load) (x : α) : PerLoad α :=
  match l with
  | .l0 => { v with l0 := x }
  | .bay b => { v with bays := v.bays.set b x }

def PerLoad.all {α : Type} (x : α) : PerLoad α := ⟨x, .all x⟩

def PerLoad.map {α β : Type} (f : α → β) (v : PerLoad α) : PerLoad β := ⟨f v.l0, v.bays.map f⟩

def PerInput.get {α : Type} (v : PerInput α) : TripInput → α
  | .ovp => v.ovp
  | .ovt => v.ovt
  | .loww => v.loww
  | .tank => v.tank
  | .cond => v.cond

def PerInput.set {α : Type} (v : PerInput α) (i : TripInput) (x : α) : PerInput α :=
  match i with
  | .ovp => { v with ovp := x }
  | .ovt => { v with ovt := x }
  | .loww => { v with loww := x }
  | .tank => { v with tank := x }
  | .cond => { v with cond := x }

/-- The bays in index order. -/
def Bay.list : List Bay := [.b1, .b2, .b3, .b4]

/-! ## Ports (chapter 1) -/

/-- The result codes (R10). -/
inductive Result where
  | ok | frame | unknown | args | state | noSlot | denied | tripped
deriving DecidableEq, Repr

/-- The receive assembly (R4): when ASSEMBLING it holds the request code, the length once it has arrived, the
argument bytes received so far and the running sum. -/
inductive Assembly where
  | idle
  | assembling (code : Byte) (len : Option Nat) (args : List Byte) (sum : Byte)
deriving DecidableEq, Repr

/-- An entry of the request buffer (section 1.4): a checked request, or a FRAME entry with its header's code. -/
inductive Entry where
  | request (code : Byte) (args : List Byte)
  | frame (code : Byte)
deriving DecidableEq, Repr

/-- A reply as it is formed at the take (R6). -/
structure Reply where
  code : Byte
  result : Result
  data : List Byte
deriving DecidableEq, Repr

/-- One serial port (R15). -/
structure PortState where
  /-- the receive assembly -/
  rx : Assembly
  /-- nothing is received: a break has been detected and RX has not yet returned high (R12), or a reset lasts (R15) -/
  inBreak : Bool
  /-- the request buffer, head first -/
  buffer : List Entry
  /-- the transmitter: IDLE, or SENDING this reply (R8) -/
  tx : Option Reply
  /-- tenths of a bit time left of the reply being sent -/
  txLeft : Nat
  /-- the link state, UP or DOWN (R13) -/
  linkUp : Bool
deriving DecidableEq, Repr

/-! ## Phase records and the Phase Store (chapter 2) -/

/-- The outcomes of a DONE record (R23). -/
inductive RecordEnd where
  | complete | short | cut | aborted | notRun | restarted
deriving DecidableEq, Repr

/-- The sub-steps of a REFRESH record (R16). -/
inductive SubStep where
  | burst | airing
deriving DecidableEq, Repr

/-- A record's kind with the parameters of R17 and the progress fields that R16 gives that kind. Masses of
parameters are in grams, temperatures in tenths of a degree, progress in milligrams and watt-hours. -/
inductive Body where
  | steam (doseG limitS : Nat) (steamMg : Nat)
  | dry (temp durationS : Nat) (heatWh : Nat)
  | refresh (burstG bursts airingS temp limitS : Nat) (steamMg burstsDone heatWh : Nat)
  | rest (durationS : Nat)
deriving DecidableEq, Repr

/-- The working fields of a CURRENT record (R21). A kind to which R21 gives no such field keeps the value it has
on becoming CURRENT, and nothing reads it. -/
structure Work where
  sub : SubStep
  burstMg : Nat
  airing : Nat
  steamCarry : Nat
  heatCarry : Nat
deriving DecidableEq, Repr

/-- The state of a record, with what only that state holds (R16, R22). -/
inductive Phase where
  | pending
  | current (w : Work)
  | done (o : RecordEnd)
deriving DecidableEq, Repr

/-- A phase record (R16). -/
structure Record where
  tag : Byte
  notify : Bool
  holdAfter : Bool
  body : Body
  phase : Phase
  activeS : Nat
  servedS : Nat
  pausedS : Nat
  starvedS : Nat
deriving DecidableEq, Repr

/-- One bay's list, head first, and its next-tag counter (R25, R26). -/
structure BayList where
  records : List Record
  nextTag : Byte
deriving DecidableEq, Repr

/-! ## Bay runners (chapter 3) -/

inductive RunState where
  | idle | running | paused | held
deriving DecidableEq, Repr

/-- The cause set, a member for each field that is true (R43). -/
structure Causes where
  request : Bool
  closure : Bool
  plant : Bool
deriving DecidableEq, Repr

/-- The claim a runner places on the arbiters (R64); a target is in tenths of a degree. -/
inductive Demand where
  | none
  | steam
  | air (target : Nat)
deriving DecidableEq, Repr

/-- One bay's runner (R41). Its current record is the record of the bay's list in state CURRENT. -/
structure Runner where
  state : RunState
  causes : Causes
  /-- the closure state: true is SHUT, false is OPEN -/
  shut : Bool
  demand : Demand
  unserved : Nat
  alert : Bool
deriving DecidableEq, Repr

/-! ## The Power Allocator (chapter 4) -/

/-- One entry of the Load Table (R70), in watts and per-mille. -/
structure LoadEntry where
  rating : Nat
  full : Nat
  weight : Nat
  request : Nat
  grant : Nat
  duty : Nat
  forced : Bool
  clipped : Bool
  /-- present only while the plant mode is MANUAL -/
  manual : Option Nat
deriving DecidableEq, Repr

/-- One heater output's place in its 2 s period, and the least on-time in force during the period, in
milliseconds (R87). -/
structure HeatOut where
  pos : Nat
  onTime : Nat
deriving DecidableEq, Repr

/-- The Load Table (R70) with the allocation number (R191). The compressor entry's running flag is the compressor
controller's state, which it mirrors (R79): `Compressor.running`. -/
structure LoadTable where
  loads : PerLoad LoadEntry
  heat : PerLoad HeatOut
  pComp : Nat
  vAvg : Nat
  vClamped : Nat
  vNom : Nat
  headroom : Nat
  unallocated : Nat
  rounds : Nat
  number : Byte
deriving DecidableEq, Repr

/-! ## Steam Service (chapter 5) -/

inductive BoilerState where
  | cold | filling | heating | ready | keepwarm | locked | manual
deriving DecidableEq, Repr

/-- The boiler controller (R96); `tb` in tenths of a degree. -/
structure Boiler where
  state : BoilerState
  tb : Int
  loWet : Bool
  hiWet : Bool
  strokes : Nat
  refill : Bool
  idle : Nat
  manualStrokes : Nat
  carry : Nat
  /-- the FEED pulse in progress, with the milliseconds it has left (R107) -/
  feed : Option Nat
deriving DecidableEq, Repr

inductive ManifoldState where
  | free | purge | open | stalled
deriving DecidableEq, Repr

/-- The manifold's holder (R111). -/
inductive Holder where
  | none
  | auto (b : Bay)
  | manual (b : Bay)
deriving DecidableEq, Repr

/-- The steam arbiter (R111). A valve is open exactly while the manifold is OPEN and its bay is the holder (R112). -/
structure Steam where
  queue : List Bay
  holder : Holder
  manifold : ManifoldState
  /-- the slice timer, milliseconds left, or stopped; it runs while the manifold is OPEN -/
  slice : Option Nat
  /-- the purge timer, milliseconds left, or stopped -/
  purge : Option Nat
  yield : Nat
deriving DecidableEq, Repr

/-! ## Air Service (chapter 6) -/

/-- A member of the air holder set: its hold timer in milliseconds and its hold length in seconds (R129). -/
structure AirHolder where
  bay : Bay
  heldMs : Nat
  lengthS : Nat
deriving DecidableEq, Repr

/-- The air arbiter (R129). A damper is open while its bay holds an air grant or its manual mark is set. -/
structure Air where
  queue : List Bay
  /-- in the order of their grants -/
  holders : List AirHolder
  marks : PerBay Bool
deriving DecidableEq, Repr

/-- A timer that is stopped, running with this many milliseconds left, or expired (R136). -/
inductive Timer where
  | stopped
  | running (left : Nat)
  | expired
deriving DecidableEq, Repr

/-- The compressor controller (R136). -/
structure Compressor where
  running : Bool
  onTimer : Timer
  offTimer : Timer
deriving DecidableEq, Repr

/-- One bay's air loop (R141); `tAir` in tenths of a degree. -/
structure AirLoop where
  tAir : Int
  /-- the sensor state: true is FAULT -/
  fault : Bool
  carry : Nat
deriving DecidableEq, Repr

/-! ## The Trip Unit (chapter 7) -/

/-- The eight trips (R148). -/
inductive Trip where
  | ovp | ovt | loww | feed | sensor | tank | cond | brown
deriving DecidableEq, Repr

/-- What fills the first-fault record (R157). -/
inductive FaultCause where
  | trip (t : Trip)
  | airSensor (b : Bay)
deriving DecidableEq, Repr

inductive Mode where
  | offline | starting | online | manualPending | manual
deriving DecidableEq, Repr

/-- The first-fault record (R157). -/
structure FirstFault where
  cause : FaultCause
  seconds : Count32
  mode : Mode
  tb : Int
  volts : Nat
deriving DecidableEq, Repr

/-- A trip input's debounced state and run count (R147). -/
structure Debounce where
  active : Bool
  run : Nat
deriving DecidableEq, Repr

/-- The latches of the boiler-class trips (R146). -/
structure Latches where
  ovp : Bool
  ovt : Bool
  loww : Bool
  feed : Bool
  sensor : Bool
deriving DecidableEq, Repr

/-- The Trip Unit (R146). The sources of OVP, OVT, TANK and COND are their debounced inputs, LOWW's is its debounced
input while armed, and FEED's is ACTIVE only within its report (R148); SENSOR's and BROWN's are held here. -/
structure TripUnit where
  inputs : PerInput Debounce
  armed : Bool
  sensorSource : Bool
  brownSource : Bool
  latches : Latches
  lowRun : Nat
  highRun : Nat
  first : Option FirstFault
  faultCount : Nat
  seconds : Count32
deriving DecidableEq, Repr

/-! ## Notices (chapter 8) -/

/-- One port's flag set and enable set, bit i for the flag at mask position i (R162, section 10.3). -/
structure Notice where
  flags : BitVec 5
  enables : BitVec 5
deriving DecidableEq, Repr

/-! ## Plant Supervision (chapter 9) -/

/-- One configuration set: the 26 parameters of R184, temperatures in tenths of a degree. -/
structure Settings where
  budget : Nat
  standing : Nat
  w0 : Nat
  w : PerBay Nat
  slice : Nat
  purgeGap : Nat
  capacity : Nat
  airSlice : Nat
  starveAlert : Nat
  tSet : Nat
  tKeep : Nat
  keepDelay : Nat
  kb : Nat
  ka : Nat
  strokeLimit : Nat
  r0 : Nat
  r : PerBay Nat
  pComp : Nat
  vNom : Nat
  yield : Nat
deriving DecidableEq, Repr

/-- The plant group of counters (R189). -/
structure PlantCounters where
  heaterWh : Count32
  starts : Count32
  runSeconds : Count32
  strokes : Count32
  boilerTrips : Count32
  supplyTrips : Count32
  mainsTrips : Count32
deriving DecidableEq, Repr

/-- One bay's group of counters (R189). -/
structure BayCounters where
  steamMg : Count32
  heaterWh : Count32
  complete : Count32
  short : Count32
  cut : Count32
  starved : Count32
  clipped : Count32
deriving DecidableEq, Repr

/-- The 45 plant counters (R189). -/
structure Counters where
  plant : PlantCounters
  bays : PerBay BayCounters
  frameErrors : PerPort Count32
  overruns : PerPort Count32
deriving DecidableEq, Repr

/-! ## Timers of one second and the inputs they sample -/

/-- What the world gives an input that has a reading when it is left open (R195): a low or a high level, or nothing. -/
inductive Wire where
  | low | high | open
deriving DecidableEq, Repr

/-- The levels at the part's inputs (section 10.7), set by the world outside: voltages in millivolts, temperatures in
thousandths of a degree, and logic levels at the digital inputs (log entry 33). -/
structure Pins where
  /-- the supply is valid (R195) -/
  supply : Bool
  /-- the level of RESETN: a low (`false`) is a power-on reset (R195) -/
  resetn : Bool
  ratesel : Bool
  probeLo : Wire
  probeHi : Wire
  trips : PerInput Wire
  vsense : Nat
  tBoil : Int
  tAir : PerBay Int
deriving DecidableEq, Repr

/-- The free-running one-second timers, each the milliseconds since its last expiry, with the samples of the
second in progress and the probes' runs of differing samples (R55, R72, R97, R104, R125, R136, R141, R146). -/
structure Clocks where
  runner : PerBay Nat
  alloc : Nat
  boiler : Nat
  metering : Nat
  comp : Nat
  loops : PerBay Nat
  trip : Nat
  vSamples : List Nat
  boilSamples : List Int
  airSamples : PerBay (List Int)
  loRun : Nat
  hiRun : Nat
deriving DecidableEq, Repr

/-! ## The part and the machine -/

/-- Everything the spec gives the part, and `orders`, the model's own free choices (log entry 3). -/
structure Part where
  ports : PerPort PortState
  /-- the bit rate sampled from RATESEL: true is 57,600 baud (R1) -/
  fast : Bool
  store : PerBay BayList
  runners : PerBay Runner
  table : LoadTable
  boiler : Boiler
  steam : Steam
  air : Air
  comp : Compressor
  loops : PerBay AirLoop
  trips : TripUnit
  notices : PerPort Notice
  mode : Mode
  live : Settings
  staged : Settings
  counters : Counters
  pins : Pins
  /-- power-on reset has ended: RESETN has risen with a valid supply, and no reset has begun since (R195) -/
  started : Bool
  clocks : Clocks
  /-- the order in which the runners take each coming mode change, one entry used at each -/
  orders : List (List Bay)
deriving DecidableEq, Repr

/-- The machine: the part and the commands that wait for it, first in, first out. -/
structure State where
  part : Part
  pending : List Instr
deriving DecidableEq, Repr

/-- A fault that stops the machine. The spec names none: no command leaves the part without a next state, and its
trips and sensor faults are states it goes on from (chapter 7). So no constructor stands here. -/
inductive Fault where
deriving DecidableEq, Repr

/-- Why a command has no meaning. -/
inductive Refusal where
  /-- Raised by an arm of `exec` whose command is not modelled yet (safe: the machine stops). No arm raises it. -/
  | notModelled (mnemonic : String)
deriving DecidableEq, Repr

/-! ## Reset -/

/-- The defaults of R184. -/
def Settings.default : Settings :=
  { budget := 3450, standing := 150, w0 := 8, w := .all 4, slice := 15, purgeGap := 1, capacity := 2, airSlice := 300
    starveAlert := 120, tSet := 1200, tKeep := 950, keepDelay := 600, kb := 40, ka := 8, strokeLimit := 120
    r0 := 2400, r := .all 600, pComp := 900, vNom := 230, yield := 1550 }

/-- R15. -/
def PortState.reset : PortState :=
  { rx := .idle, inBreak := false, buffer := [], tx := none, txLeft := 0, linkUp := false }

/-- R42. -/
def Runner.reset : Runner :=
  { state := .idle, causes := ⟨false, true, true⟩, shut := false, demand := .none, unserved := 0, alert := false }

/-- R71. -/
def LoadEntry.reset (rating weight : Nat) : LoadEntry :=
  { rating := rating, full := rating, weight := weight, request := 0, grant := 0, duty := 0, forced := false
    clipped := false, manual := none }

/-- R71 (the allocation number: R191). -/
def LoadTable.reset : LoadTable :=
  { loads := ⟨.reset 2400 8, .all (.reset 600 4)⟩, heat := .all ⟨0, 0⟩, pComp := 900, vAvg := 230, vClamped := 230
    vNom := 230, headroom := 3300, unallocated := 3300, rounds := 0, number := 0 }

/-- R96. -/
def Boiler.reset : Boiler :=
  { state := .cold, tb := 0, loWet := false, hiWet := false, strokes := 0, refill := false, idle := 0
    manualStrokes := 0, carry := 0, feed := none }

/-- R111. -/
def Steam.reset : Steam :=
  { queue := [], holder := .none, manifold := .free, slice := none, purge := none, yield := 1550 }

/-- R146. -/
def TripUnit.reset : TripUnit :=
  { inputs := ⟨⟨false, 0⟩, ⟨false, 0⟩, ⟨false, 0⟩, ⟨false, 0⟩, ⟨false, 0⟩⟩, armed := false, sensorSource := false
    brownSource := false, latches := ⟨false, false, false, false, false⟩, lowRun := 0, highRun := 0, first := none
    faultCount := 0, seconds := 0 }

/-- R189. -/
def Counters.reset : Counters :=
  { plant := ⟨0, 0, 0, 0, 0, 0, 0⟩, bays := .all ⟨0, 0, 0, 0, 0, 0, 0⟩, frameErrors := .all 0, overruns := .all 0 }

/-- DESIGN CHOICE (log entry 5): input levels are the outside world's, and the manual gives none for power-on. -/
def Pins.reset : Pins :=
  { supply := true, resetn := true, ratesel := false, probeLo := .low, probeHi := .low
    trips := ⟨.low, .low, .low, .low, .low⟩
    vsense := 230000, tBoil := 20000, tAir := .all 20000 }

/-- Every one-second timer starts counting at the end of the reset (R55, R72, R96, R111, R136, R141, R146). -/
def Clocks.reset : Clocks :=
  { runner := .all 0, alloc := 0, boiler := 0, metering := 0, comp := 0, loops := .all 0, trip := 0, vSamples := []
    boilSamples := [], airSamples := .all [], loRun := 0, hiRun := 0 }

/-- Every block at the value its chapter gives for power-on reset (R195), for given input levels and free choices. -/
def Part.afterReset (pins : Pins) (orders : List (List Bay)) : Part :=
  { ports := .all .reset
    fast := pins.ratesel
    store := .all ⟨[], 0⟩
    runners := .all .reset
    table := .reset
    boiler := .reset
    steam := .reset
    air := ⟨[], [], .all false⟩
    comp := ⟨false, .stopped, .running Config.offTimeMs⟩
    loops := .all ⟨0, false, 0⟩
    trips := .reset
    notices := .all ⟨0, 0x1F⟩
    mode := .offline
    live := .default
    staged := .default
    counters := .reset
    pins := pins
    started := true
    clocks := .reset
    orders := orders }

/-- The part during a power-on reset, for given input levels (R195): every operation has ended at once, each block stands at
the value from which it will start, no port receives (R15), and the bit rate is the one last sampled (R1). -/
def Part.heldInReset (s : Part) (pins : Pins) : Part :=
  { Part.afterReset pins s.orders with
    ports := .all { PortState.reset with inBreak := true }, fast := s.fast, started := false }

/-- The machine right after power-on reset, with no command waiting. -/
def State.reset : State := ⟨.afterReset .reset [], []⟩

end Sys2Proof.Machine
end

