-- ==== Sys2Proof/Machine/Ops.lean ====
section
/-! DEFINITION. Sys2Proof/Machine/Ops.lean: the named reads and writes of the state on which every meaning is built,
saturating and wrapping counts, means of samples, and the outcome of a command that has run. -/

namespace Sys2Proof.Machine

/-! ## Arithmetic -/

/-- A count that stops at its upper limit (R19). -/
def satAdd (limit n k : Nat) : Nat := min limit (n + k)

/-- The nearest value of the range (R11). -/
def clampNat (lo hi : Nat) (x : Int) : Nat :=
  if x < lo then lo else if (hi : Int) < x then hi else x.toNat

/-- The mean of samples, each first limited to its range, rounded down to a multiple of `unit` and counted in it;
`none` of no samples (R72, R97, R141). -/
def sampleMean (lo hi unit : Int) (samples : List Int) : Option Int :=
  match samples with
  | [] => none
  | _ => some ((samples.map fun x => max lo (min hi x)).sum / (samples.length * unit))

/-! ## Indexed parts of the state -/

def Part.port (s : Part) (p : Port) : PortState := s.ports.get p
def Part.setPort (s : Part) (p : Port) (x : PortState) : Part := { s with ports := s.ports.set p x }

def Part.list (s : Part) (b : Bay) : List Record := (s.store.get b).records
def Part.setList (s : Part) (b : Bay) (rs : List Record) : Part :=
  { s with store := s.store.set b { s.store.get b with records := rs } }

def Part.runner (s : Part) (b : Bay) : Runner := s.runners.get b
def Part.setRunner (s : Part) (b : Bay) (r : Runner) : Part := { s with runners := s.runners.set b r }

def Part.load (s : Part) (l : Load) : LoadEntry := s.table.loads.get l
def Part.setLoad (s : Part) (l : Load) (e : LoadEntry) : Part :=
  { s with table := { s.table with loads := s.table.loads.set l e } }

def Part.loop (s : Part) (b : Bay) : AirLoop := s.loops.get b
def Part.setLoop (s : Part) (b : Bay) (x : AirLoop) : Part := { s with loops := s.loops.set b x }

def Part.notice (s : Part) (p : Port) : Notice := s.notices.get p
def Part.setNotice (s : Part) (p : Port) (n : Notice) : Part := { s with notices := s.notices.set p n }

def Part.setBoiler (s : Part) (x : Boiler) : Part := { s with boiler := x }
def Part.setSteam (s : Part) (x : Steam) : Part := { s with steam := x }
def Part.setAir (s : Part) (x : Air) : Part := { s with air := x }
def Part.setComp (s : Part) (x : Compressor) : Part := { s with comp := x }
def Part.setTrips (s : Part) (x : TripUnit) : Part := { s with trips := x }
def Part.setTable (s : Part) (x : LoadTable) : Part := { s with table := x }
def Part.setMode (s : Part) (m : Mode) : Part := { s with mode := m }
def Part.setClocks (s : Part) (x : Clocks) : Part := { s with clocks := x }
def Part.setPins (s : Part) (x : Pins) : Part := { s with pins := x }

/-! ## Inputs and the power-on reset (R195) -/

/-- A trip input reads active when it is high, and its weak pull-up makes it read so when it is left open (R147, R195). -/
def Wire.active : Wire → Bool
  | .low => false
  | .high | .open => true

/-- A probe reads wet when it is high, and dry when it is left open (R195, section 10.7). -/
def Wire.wet : Wire → Bool
  | .high => true
  | .low | .open => false

/-- The level at a digital input that a command reports with this reading: the one that stands, where it reads so. -/
def Wire.reporting (w : Wire) (reads : Wire → Bool) (level : Bool) : Wire :=
  if reads w = level then w else if level then .high else .low

/-- A power-on reset is in progress: RESETN is low, or the supply is not valid, or the reset has not ended (R195). -/
def Part.held (s : Part) : Bool := !(s.pins.resetn && s.pins.supply && s.started)

/-! ## Plant counters: each wraps silently (R189) -/

def Part.bayCounters (s : Part) (b : Bay) : BayCounters := s.counters.bays.get b
def Part.setBayCounters (s : Part) (b : Bay) (x : BayCounters) : Part :=
  { s with counters := { s.counters with bays := s.counters.bays.set b x } }
def Part.setPlantCounters (s : Part) (x : PlantCounters) : Part :=
  { s with counters := { s.counters with plant := x } }

/-- The frame-error counter of a port increments by one (R14). -/
def Part.countFrameError (s : Part) (p : Port) : Part :=
  { s with counters :=
      { s.counters with frameErrors := s.counters.frameErrors.set p (s.counters.frameErrors.get p + 1) } }

/-- The overrun counter of a port increments by one (R14). -/
def Part.countOverrun (s : Part) (p : Port) : Part :=
  { s with counters := { s.counters with overruns := s.counters.overruns.set p (s.counters.overruns.get p + 1) } }

/-- The bay's counter of the outcome of a record that ends COMPLETE, SHORT or otherwise (R54). -/
def Part.countEnd (s : Part) (b : Bay) (o : RecordEnd) : Part :=
  let c := s.bayCounters b
  match o with
  | .complete => s.setBayCounters b { c with complete := c.complete + 1 }
  | .short => s.setBayCounters b { c with short := c.short + 1 }
  | _ => s.setBayCounters b { c with cut := c.cut + 1 }

/-! ## Free choices of order (log entry 3) -/

/-- Every bay once: those a free choice names, in its order, then the others in index order. -/
def arrange (choice : List Bay) : List Bay :=
  (choice ++ Bay.list).foldl (fun acc b => if b ∈ acc then acc else acc ++ [b]) []

/-- The order of the coming mode change, and the part with that choice used up. -/
def Part.takeOrder (s : Part) : List Bay × Part :=
  match s.orders with
  | [] => (arrange [], s)
  | o :: rest => (arrange o, { s with orders := rest })

/-! ## Running a command -/

/-- The outcome of a command whose effect on the part is `f`; the queue is left to `step`. -/
def State.run (s : State) (f : Part → Part) : Host.Outcome State Fault Refusal :=
  .next { s with part := f s.part }

end Sys2Proof.Machine
end

