-- ==== Sys2Proof/Machine/Operands.lean ====
section
/-! DEFINITION. Sys2Proof/Machine/Operands.lean: the encodings of R194 and chapter 10: multi-byte fields, selectors, codes
and masks, the request codes, and the ranges to which arguments are clamped. -/

namespace Sys2Proof.Machine

/-! ## Fields of two and four bytes, little-endian (R194) -/

def le16 (n : Nat) : List Byte := [BitVec.ofNat 8 n, BitVec.ofNat 8 (n / 256)]

/-- A signed 16-bit field, in two's complement. -/
def le16s (z : Int) : List Byte := le16 (BitVec.ofInt 16 z).toNat

def le32 (n : Nat) : List Byte := le16 n ++ le16 (n / 65536)

def byteOf (n : Nat) : Byte := BitVec.ofNat 8 n

def flagByte (f : Bool) : Byte := if f then 1 else 0

/-- The unsigned value of two bytes, the lower offset first. -/
def u16 (lo hi : Byte) : Nat := lo.toNat + 256 * hi.toNat

/-- The signed value of two bytes. -/
def i16 (lo hi : Byte) : Int := (BitVec.ofNat 16 (u16 lo hi)).toInt

/-- A mask from its bits, bit 0 first (section 10.3). -/
def maskByte : List Bool → Byte
  | [] => 0
  | f :: rest => flagByte f ||| (maskByte rest <<< 1)

/-- A list of bays: a count, then four places (R194). -/
def bayPlaces (number : Bay → Byte) (bays : List Bay) : List Byte :=
  byteOf bays.length :: (bays.map number ++ List.replicate 4 0).take 4

/-! ## Bays, ports and loads -/

/-- The bay number 1 to 4. -/
def Bay.number : Bay → Nat
  | .b1 => 1
  | .b2 => 2
  | .b3 => 3
  | .b4 => 4

def Bay.ofByte (x : Byte) : Option Bay := Bay.list.find? fun b => byteOf (Bay.number b) = x

def Port.list : List Port := .sp :: Bay.list.map .bp

def Load.list : List Load := .l0 :: Bay.list.map .bay

/-! ## Codes of section 10.3 -/

def Result.code : Result → Byte
  | .ok => 0x00
  | .frame => 0x01
  | .unknown => 0x02
  | .args => 0x03
  | .state => 0x04
  | .noSlot => 0x05
  | .denied => 0x06
  | .tripped => 0x07

def Body.kindCode : Body → Byte
  | .steam .. => 0x01
  | .dry .. => 0x02
  | .refresh .. => 0x03
  | .rest .. => 0x04

def RecordEnd.code : RecordEnd → Byte
  | .complete => 0x01
  | .short => 0x02
  | .cut => 0x03
  | .aborted => 0x04
  | .notRun => 0x05
  | .restarted => 0x06

def SubStep.code : SubStep → Byte
  | .burst => 0x01
  | .airing => 0x02

def RunState.code : RunState → Byte
  | .idle => 0x00
  | .running => 0x01
  | .paused => 0x02
  | .held => 0x03

def Demand.code : Demand → Byte
  | .none => 0x00
  | .steam => 0x01
  | .air _ => 0x02

def Mode.code : Mode → Byte
  | .offline => 0x00
  | .starting => 0x01
  | .online => 0x02
  | .manualPending => 0x03
  | .manual => 0x04

def BoilerState.code : BoilerState → Byte
  | .cold => 0x00
  | .filling => 0x01
  | .heating => 0x02
  | .ready => 0x03
  | .keepwarm => 0x04
  | .locked => 0x05
  | .manual => 0x06

def ManifoldState.code : ManifoldState → Byte
  | .free => 0x00
  | .purge => 0x01
  | .open => 0x02
  | .stalled => 0x03

/-- The holder as PLANT_QUERY and the valve drives report it. -/
def Holder.code : Holder → Byte
  | .none => 0x00
  | .auto b => byteOf (Bay.number b)
  | .manual b => byteOf (0x80 + Bay.number b)

def Trip.code : Trip → Byte
  | .ovp => 0x01
  | .ovt => 0x02
  | .loww => 0x03
  | .feed => 0x04
  | .sensor => 0x05
  | .tank => 0x06
  | .cond => 0x07
  | .brown => 0x08

def FaultCause.code : FaultCause → Byte
  | .trip t => t.code
  | .airSensor _ => 0x09

def FaultCause.bayByte : FaultCause → Byte
  | .trip _ => 0
  | .airSensor b => byteOf (Bay.number b)

def Causes.mask (c : Causes) : Byte := maskByte [c.request, c.closure, c.plant]

def Latches.mask (l : Latches) : Byte := maskByte [l.ovp, l.ovt, l.loww, l.feed, l.sensor]

/-! ## Characters and replies (R1, R6, section 10.2) -/

/-- The levels of one character on a line, one for each of its 11 bit times: the start bit low, the eight data bits with
the least significant first, the marker and the stop bit high (R1). -/
def characterBits (marker : Bool) (x : Byte) : List Bool :=
  [false, x.getLsbD 0, x.getLsbD 1, x.getLsbD 2, x.getLsbD 3, x.getLsbD 4, x.getLsbD 5, x.getLsbD 6, x.getLsbD 7,
    marker, true]

/-- The bytes of a reply without its check byte (R6). -/
def Reply.bytes (r : Reply) : List Byte := [r.code, r.result.code, byteOf r.data.length] ++ r.data

/-- The check byte makes the sum of all bytes 0 modulo 256. -/
def Reply.check (r : Reply) : Byte := -(r.bytes.foldl (· + ·) 0)

/-- The characters of a reply in the order they are sent, each with its marker: 1 on the header alone. -/
def Reply.characters (r : Reply) : List (Bool × Byte) :=
  match r.bytes with
  | [] => []
  | h :: rest => (true, h) :: (rest ++ [r.check]).map fun x => (false, x)

/-- The levels of a reply on TX, one for each bit time: its characters back to back (R6). -/
def Reply.line (r : Reply) : List Bool := r.characters.flatMap fun c => characterBits c.1 c.2

/-- The transmission time of a reply, in tenths of a bit time: 11 bit times a character (R1). -/
def Reply.tenths (r : Reply) : Nat := (4 + r.data.length) * 110

/-! ## Requests (sections 1.5 and 10.2) -/

/-- The requests that the code table assigns. -/
inductive Request where
  | append | withdraw | collect
  | runStart | runPause | runResume | runFinish | runAbort | closureReport | bayAbort
  | bayQuery | plantQuery | noteRead | noteAck | noteEnable
  | plantStart | plantHalt | plantRestart | manualEnter | manDrive | manualExit
  | cfgLive | cfgStage | cfgRead | cntRead | cntReadClear | ledgerRead | faultClear
deriving DecidableEq, Repr

def Request.code : Request → Byte
  | .append => 0x11
  | .withdraw => 0x12
  | .collect => 0x13
  | .runStart => 0x21
  | .runPause => 0x22
  | .runResume => 0x23
  | .runFinish => 0x24
  | .runAbort => 0x25
  | .closureReport => 0x26
  | .bayAbort => 0x27
  | .bayQuery => 0x31
  | .plantQuery => 0x32
  | .noteRead => 0x38
  | .noteAck => 0x39
  | .noteEnable => 0x3A
  | .plantStart => 0x41
  | .plantHalt => 0x42
  | .plantRestart => 0x43
  | .manualEnter => 0x44
  | .manDrive => 0x45
  | .manualExit => 0x46
  | .cfgLive => 0x51
  | .cfgStage => 0x52
  | .cfgRead => 0x53
  | .cntRead => 0x54
  | .cntReadClear => 0x55
  | .ledgerRead => 0x56
  | .faultClear => 0x57

def Request.list : List Request :=
  [.append, .withdraw, .collect, .runStart, .runPause, .runResume, .runFinish, .runAbort, .closureReport, .bayAbort,
   .bayQuery, .plantQuery, .noteRead, .noteAck, .noteEnable, .plantStart, .plantHalt, .plantRestart, .manualEnter,
   .manDrive, .manualExit, .cfgLive, .cfgStage, .cfgRead, .cntRead, .cntReadClear, .ledgerRead, .faultClear]

/-- The request a code is assigned to, if any (R9). -/
def Request.ofCode (c : Byte) : Option Request := Request.list.find? fun r => r.code = c

/-- Which ports accept a request, by the table of section 1.5. -/
inductive Access where
  /-- bay "yes", service "no" -/
  | bayOnly
  /-- bay "denied", service "yes" -/
  | serviceOnly
  | both
deriving DecidableEq, Repr

def Request.access : Request → Access
  | .append | .withdraw | .collect | .runStart | .runPause | .runResume | .runFinish | .runAbort
  | .closureReport => .bayOnly
  | .bayQuery | .plantQuery | .noteRead | .noteAck | .noteEnable => .both
  | .bayAbort | .plantStart | .plantHalt | .plantRestart | .manualEnter | .manDrive | .manualExit | .cfgLive | .cfgStage
  | .cfgRead | .cntRead | .cntReadClear | .ledgerRead | .faultClear => .serviceOnly

/-! ## Configuration parameters (R184) -/

/-- The 26 parameters, in the order of R184. -/
inductive Param where
  | budget | standing | w0 | w (b : Bay) | slice | purgeGap | capacity | airSlice | starveAlert | tSet | tKeep
  | keepDelay | kb | ka | strokeLimit | r0 | r (b : Bay) | pComp | vNom | yield
deriving DecidableEq, Repr

/-- The live-class parameters, in the order of R184. -/
def Param.liveList : List Param :=
  [.budget, .standing, .w0, .w .b1, .w .b2, .w .b3, .w .b4, .slice, .purgeGap, .capacity, .airSlice, .starveAlert,
   .tSet, .tKeep, .keepDelay, .kb, .ka, .strokeLimit]

/-- The staged-class parameters, in the order of R184. -/
def Param.stagedList : List Param :=
  [.r0, .r .b1, .r .b2, .r .b3, .r .b4, .pComp, .vNom, .yield]

/-- The parameter of a selector: 01h to 1Ah in the order of R184 (section 10.6). -/
def Param.ofSelector (x : Byte) : Option Param :=
  if x = 0 then none else (Param.liveList ++ Param.stagedList)[x.toNat - 1]?

def Param.lo : Param → Nat
  | .budget => 1000
  | .standing => 0
  | .w0 | .w _ => 1
  | .slice => 5
  | .purgeGap => 0
  | .capacity => 1
  | .airSlice => 60
  | .starveAlert => 30
  | .tSet => 1050
  | .tKeep => 800
  | .keepDelay => 0
  | .kb => 5
  | .ka => 1
  | .strokeLimit => 20
  | .r0 => 500
  | .r _ => 0
  | .pComp => 300
  | .vNom => 220
  | .yield => 1000

def Param.hi : Param → Nat
  | .budget => 7200
  | .standing => 500
  | .w0 => 15
  | .w _ => 8
  | .slice => 60
  | .purgeGap => 5
  | .capacity => 4
  | .airSlice => 900
  | .starveAlert => 900
  | .tSet => 1400
  | .tKeep => 1100
  | .keepDelay => 3600
  | .kb => 200
  | .ka => 50
  | .strokeLimit => 400
  | .r0 => 3000
  | .r _ => 1000
  | .pComp => 1500
  | .vNom => 240
  | .yield => 2000

/-- Temperatures are signed, every other parameter unsigned (R184). -/
def Param.signed : Param → Bool
  | .tSet | .tKeep => true
  | _ => false

/-- The value of two argument bytes for a parameter. -/
def Param.read (q : Param) (lo hi : Byte) : Int := if q.signed then i16 lo hi else u16 lo hi

/-- The stored value of a value sent: clamped, and B then rounded down to a multiple of 10 W (R185). -/
def Param.store (q : Param) (x : Int) : Nat :=
  let n := clampNat q.lo q.hi x
  if q = .budget then n / 10 * 10 else n

def Settings.get (c : Settings) : Param → Nat
  | .budget => c.budget
  | .standing => c.standing
  | .w0 => c.w0
  | .w b => c.w.get b
  | .slice => c.slice
  | .purgeGap => c.purgeGap
  | .capacity => c.capacity
  | .airSlice => c.airSlice
  | .starveAlert => c.starveAlert
  | .tSet => c.tSet
  | .tKeep => c.tKeep
  | .keepDelay => c.keepDelay
  | .kb => c.kb
  | .ka => c.ka
  | .strokeLimit => c.strokeLimit
  | .r0 => c.r0
  | .r b => c.r.get b
  | .pComp => c.pComp
  | .vNom => c.vNom
  | .yield => c.yield

def Settings.set (c : Settings) (q : Param) (n : Nat) : Settings :=
  match q with
  | .budget => { c with budget := n }
  | .standing => { c with standing := n }
  | .w0 => { c with w0 := n }
  | .w b => { c with w := c.w.set b n }
  | .slice => { c with slice := n }
  | .purgeGap => { c with purgeGap := n }
  | .capacity => { c with capacity := n }
  | .airSlice => { c with airSlice := n }
  | .starveAlert => { c with starveAlert := n }
  | .tSet => { c with tSet := n }
  | .tKeep => { c with tKeep := n }
  | .keepDelay => { c with keepDelay := n }
  | .kb => { c with kb := n }
  | .ka => { c with ka := n }
  | .strokeLimit => { c with strokeLimit := n }
  | .r0 => { c with r0 := n }
  | .r b => { c with r := c.r.set b n }
  | .pComp => { c with pComp := n }
  | .vNom => { c with vNom := n }
  | .yield => { c with yield := n }

/-- The weight of a load in a configuration set. -/
def Settings.weight (c : Settings) : Load → Nat
  | .l0 => c.w0
  | .bay b => c.w.get b

/-- The rating of a load in a configuration set. -/
def Settings.rating (c : Settings) : Load → Nat
  | .l0 => c.r0
  | .bay b => c.r.get b

/-! ## Manual drives (R182, section 10.6) -/

/-- A drive that a selector names. -/
inductive Drive where
  | heat (l : Load)
  | feed
  | valve (b : Bay)
  | comp
  | damp (b : Bay)
deriving DecidableEq, Repr

def Drive.selector : Drive → Byte
  | .heat .l0 => 0x01
  | .heat (.bay b) => byteOf (0x01 + Bay.number b)
  | .feed => 0x08
  | .valve b => byteOf (0x10 + Bay.number b)
  | .comp => 0x18
  | .damp b => byteOf (0x20 + Bay.number b)

def Drive.list : List Drive :=
  Load.list.map .heat ++ [.feed] ++ Bay.list.map .valve ++ [.comp] ++ Bay.list.map .damp

def Drive.ofSelector (x : Byte) : Option Drive := Drive.list.find? fun d => d.selector = x

/-- The three argument bytes of a drive with a value. -/
def Drive.args (d : Drive) (value : Half) : List Byte := d.selector :: le16 value.toNat

/-! ## Records in APPEND and COLLECT (section 10.4) -/

/-- A parameter clamped to its range, with whether its stored value differs from the value sent (R18). -/
def clamped (lo hi : Nat) (x : Int) : Nat × Bool :=
  let n := clampNat lo hi x
  (n, (n : Int) ≠ x)

/-- The kind, flags and clamped parameters of APPEND's argument bytes, and the clamped set; `none` where R29 refuses
the arguments. -/
def appendBody (args : List Byte) : Option ((Bool × Bool) × Body × Byte) :=
  match args with
  | kind :: flags :: ps =>
    if flags &&& 0xFC ≠ 0 then none
    else
      let fl := (flags.getLsbD 0, flags.getLsbD 1)
      match kind.toNat, ps with
      | 0x01, [d0, d1, l0, l1] =>
        let d := clamped 1 2000 (u16 d0 d1)
        let l := clamped 30 3600 (u16 l0 l1)
        some (fl, .steam d.1 l.1 0, maskByte [d.2, l.2])
      | 0x02, [t0, t1, d0, d1] =>
        let t := clamped 350 700 (i16 t0 t1)
        let d := clamped 60 7200 (u16 d0 d1)
        some (fl, .dry t.1 d.1 0, maskByte [t.2, d.2])
      | 0x03, [g0, g1, n, a0, a1, t0, t1, l0, l1] =>
        let g := clamped 1 500 (u16 g0 g1)
        let n := clamped 1 8 n.toNat
        let a := clamped 30 900 (u16 a0 a1)
        let t := clamped 350 700 (i16 t0 t1)
        let l := clamped 60 10800 (u16 l0 l1)
        some (fl, .refresh g.1 n.1 a.1 t.1 l.1 0 0 0, maskByte [g.2, n.2, a.2, t.2, l.2])
      | 0x04, [d0, d1] =>
        let d := clamped 1 3600 (u16 d0 d1)
        some (fl, .rest d.1, maskByte [d.2])
      | _, _ => none
  | _ => none

/-- The parameter bytes of a record, in the APPEND layout from its byte 2. -/
def Body.paramBytes : Body → List Byte
  | .steam d l _ => le16 d ++ le16 l
  | .dry t d _ => le16s t ++ le16 d
  | .refresh g n a t l _ _ _ => le16 g ++ [byteOf n] ++ le16 a ++ le16s t ++ le16 l
  | .rest d => le16 d

/-- The progress fields that the kind holds, in the COLLECT layout. -/
def Body.progressBytes : Body → List Byte
  | .steam _ _ mg => le32 mg
  | .dry _ _ wh => le16 wh
  | .refresh _ _ _ _ _ mg n wh => le32 mg ++ [byteOf n] ++ le16 wh
  | .rest _ => []

/-- `steam_mg`, 0 for a kind without it (R193). -/
def Body.steamMg : Body → Nat
  | .steam _ _ mg => mg
  | .refresh _ _ _ _ _ mg _ _ => mg
  | _ => 0

/-- `bursts_done`, 0 for a kind without it. -/
def Body.burstsDone : Body → Nat
  | .refresh _ _ _ _ _ _ n _ => n
  | _ => 0

/-- `heat_wh`, 0 for a kind without it. -/
def Body.heatWh : Body → Nat
  | .dry _ _ wh => wh
  | .refresh _ _ _ _ _ _ _ wh => wh
  | _ => 0

def Body.isRefresh : Body → Bool
  | .refresh .. => true
  | _ => false

/-- The kinds with `steam_mg`. -/
def Body.hasSteam : Body → Bool
  | .steam .. | .refresh .. => true
  | _ => false

/-- The kinds with `heat_wh`. -/
def Body.hasHeat : Body → Bool
  | .dry .. | .refresh .. => true
  | _ => false

/-- The flags mask of a record. -/
def Record.flagsMask (r : Record) : Byte := maskByte [r.notify, r.holdAfter]

end Sys2Proof.Machine
end

