-- ==== Sys2Proof/Machine/Flags.lean ====
section
/-! DEFINITION. Sys2Proof/Machine/Flags.lean: the notice flags and ATTN (chapter 8), the trips that stand and what they
force (R148, R154), and the levels of the output pins as a view of the state (section 10.7). -/

namespace Sys2Proof.Machine

/-! ## Notices -/

/-- The notices of a bay port, in mask order (R162). -/
inductive BayNote where
  | done | ended | held | starved | plant
deriving DecidableEq, Repr

/-- The notices of the service port, in mask order (R162). -/
inductive SpNote where
  | trip | cleared | mode | link | fault
deriving DecidableEq, Repr

def BayNote.bit : BayNote → BitVec 5
  | .done => 0x01
  | .ended => 0x02
  | .held => 0x04
  | .starved => 0x08
  | .plant => 0x10

def SpNote.bit : SpNote → BitVec 5
  | .trip => 0x01
  | .cleared => 0x02
  | .mode => 0x04
  | .link => 0x08
  | .fault => 0x10

/-- A raising sets one flag and changes nothing else (R164). -/
def Notice.raise (n : Notice) (bit : BitVec 5) : Notice := { n with flags := n.flags ||| bit }

def Part.raiseBay (s : Part) (b : Bay) (f : BayNote) : Part :=
  s.setNotice (.bp b) ((s.notice (.bp b)).raise f.bit)

def Part.raiseSp (s : Part) (f : SpNote) : Part := s.setNotice .sp ((s.notice .sp).raise f.bit)

/-- ATTN is low while the flag set and the enable set have a common member (R163). -/
def Notice.attnLow (n : Notice) : Bool := n.flags &&& n.enables ≠ 0

/-- Raise PLANT on every bay whose runner is not IDLE (R155). -/
def Part.raisePlantNonIdle (s : Part) : Part :=
  Bay.list.foldl (fun s b => if (s.runner b).state = .idle then s else s.raiseBay b .plant) s

/-! ## Trips -/

/-- The boiler-class trips (R148). -/
def Trip.isBoiler : Trip → Bool
  | .ovp | .ovt | .loww | .feed | .sensor => true
  | .tank | .cond | .brown => false

def Latches.get (l : Latches) : Trip → Bool
  | .ovp => l.ovp
  | .ovt => l.ovt
  | .loww => l.loww
  | .feed => l.feed
  | .sensor => l.sensor
  | .tank | .cond | .brown => false

def Latches.latch (l : Latches) : Trip → Latches
  | .ovp => { l with ovp := true }
  | .ovt => { l with ovt := true }
  | .loww => { l with loww := true }
  | .feed => { l with feed := true }
  | .sensor => { l with sensor := true }
  | .tank | .cond | .brown => l

/-- At least one boiler-class trip is latched. -/
def Latches.any (l : Latches) : Bool := l.ovp || l.ovt || l.loww || l.feed || l.sensor

def Part.boilerLatched (s : Part) : Bool := s.trips.latches.any

/-- The source of each trip (R148); FEED's is ACTIVE only for the instant of its report (R150). -/
def TripUnit.source (t : TripUnit) : Trip → Bool
  | .ovp => t.inputs.ovp.active
  | .ovt => t.inputs.ovt.active
  | .loww => t.inputs.loww.active && t.armed
  | .feed => false
  | .sensor => t.sensorSource
  | .tank => t.inputs.tank.active
  | .cond => t.inputs.cond.active
  | .brown => t.brownSource

def Trip.list : List Trip := [.ovp, .ovt, .loww, .feed, .sensor, .tank, .cond, .brown]

/-- The mask of the trips whose source is ACTIVE (R161). -/
def TripUnit.activeMask (t : TripUnit) : Byte := maskByte (Trip.list.map t.source)

def Part.tankActive (s : Part) : Bool := s.trips.source .tank
def Part.condActive (s : Part) : Bool := s.trips.source .cond
def Part.brownActive (s : Part) : Bool := s.trips.source .brown

/-- The boiler states and the L0 duty that arm LOWW (R149). -/
def Part.lowwArmedNow (s : Part) : Bool :=
  match s.boiler.state with
  | .heating | .ready | .keepwarm => true
  | .manual => 0 < (s.load .l0).duty
  | .cold | .filling | .locked => false

/-! ## Output pins -/

/-- A valve is open exactly while the manifold is OPEN with its bay as holder (R112). -/
def Steam.valveOpen (a : Steam) (b : Bay) : Bool :=
  a.manifold = .open && (a.holder = .auto b || a.holder = .manual b)

def Air.isHolder (a : Air) (b : Bay) : Bool := a.holders.any fun h => h.bay = b

/-- A damper is open while its bay is in the holder set or its manual mark is set (R129). -/
def Air.damperOpen (a : Air) (b : Bay) : Bool := a.isHolder b || a.marks.get b

/-- A heater output is on from the start of its period for the least on-time in force during it; an on-time of the whole
period, at a duty of 1000, keeps it on to the start of the next, also while that start waits to be taken (R87). -/
def HeatOut.on (h : HeatOut) : Bool := h.pos < h.onTime || Config.periodMs ≤ h.onTime

/-- The trips that force a load's output off (R154). -/
def Part.heatForced (s : Part) (l : Load) : Bool :=
  match l with
  | .l0 => s.boilerLatched || s.brownActive
  | .bay _ => s.brownActive

/-- The level of a TX line: high while the transmitter is IDLE, and while it is SENDING the bit of the reply that the time
sent so far has reached (R1, R6). -/
def PortState.txLevel (x : PortState) : Bool :=
  match x.tx with
  | none => true
  | some r => r.line.getD ((r.tenths - x.txLeft) / 10) true

/-- The levels of the output pins: HEAT, FEED, VALVE, COMP, DAMP and TX high when on, open or idle; ATTN high when no
enabled flag is set. -/
structure Outputs where
  heat : PerLoad Bool
  feed : Bool
  valve : PerBay Bool
  comp : Bool
  damp : PerBay Bool
  /-- the line idles high: no reply is being sent -/
  txIdleHigh : PerPort Bool
  /-- the level of each TX line -/
  tx : PerPort Bool
  attn : PerPort Bool
deriving DecidableEq, Repr

/-- The outputs as their owners drive them, each forced off while a trip that forces it stands (R154). They are the levels
at the pins outside a power-on reset (`Part.pinLevels`). -/
def Part.outputs (s : Part) : Outputs :=
  let bays (f : Bay → Bool) : PerBay Bool := ⟨f .b1, f .b2, f .b3, f .b4⟩
  let heat (l : Load) : Bool := (s.table.heat.get l).on && !(s.load l).forced && !s.heatForced l
  { heat := ⟨heat .l0, bays fun b => heat (.bay b)⟩
    feed := s.boiler.feed.isSome && !(s.boilerLatched || s.tankActive)
    valve := bays fun b => s.steam.valveOpen b && !s.boilerLatched
    comp := s.comp.running && !(s.condActive || s.brownActive)
    damp := bays s.air.damperOpen
    txIdleHigh := ⟨(s.port .sp).tx.isNone, bays fun b => (s.port (.bp b)).tx.isNone⟩
    tx := ⟨(s.port .sp).txLevel, bays fun b => (s.port (.bp b)).txLevel⟩
    attn := ⟨!(s.notice .sp).attnLow, bays fun b => !(s.notice (.bp b)).attnLow⟩ }

/-- The levels that the output pins take during a power-on reset: every plant output low, every TX and ATTN high (R195). -/
def Outputs.inReset : Outputs :=
  { heat := .all false, feed := false, valve := .all false, comp := false, damp := .all false, txIdleHigh := .all true
    tx := .all true, attn := .all true }

/-- The levels at the output pins: those of R195 during a power-on reset, and otherwise as their owners drive them. -/
def Part.pinLevels (s : Part) : Outputs := if s.held then .inReset else s.outputs

end Sys2Proof.Machine
end

