-- ==== Sys2Proof/Machine/Allocator.lean ====
section
/-! DEFINITION. Sys2Proof/Machine/Allocator.lean: the Load Table's arithmetic (chapter 4): headroom, the division of it
among the heater requests, duties, clipping and full powers. Every function here is of the table alone; what an
allocation sets off elsewhere stands in TripUnit.lean. -/

namespace Sys2Proof.Machine

/-- A participant of an allocation (R82). -/
structure Claim where
  load : Load
  weight : Nat
  request : Nat
deriving DecidableEq, Repr

def Claim.total (u : List Claim) : Nat := (u.map Claim.request).sum

/-- The leftover pass of R84 over the loads that no round fixed, each at `share` times its weight. -/
def handOut (share : Nat) : Nat → List Claim → List (Load × Nat)
  | _, [] => []
  | left, c :: rest =>
    let g := share * c.weight
    let extra := min c.weight (min (c.request - g) left)
    (c.load, g + extra) :: handOut share (left - extra) rest

/-- The rounds of R83 on the unfixed loads and the watts not yet given, with the number of rounds run. The first
argument bounds the rounds. -/
def shareRounds : Nat → List Claim → Nat → List (Load × Nat) × Nat
  | 0, _, _ => ([], 0)
  | _ + 1, [], _ => ([], 0)
  | k + 1, c :: cs, h =>
    let u := c :: cs
    let w := (u.map Claim.weight).sum
    let share := h / w
    let fits (x : Claim) : Bool := x.request ≤ share * x.weight
    match u.filter fits with
    | [] => (handOut share (h - share * w) u, 1)
    | f :: fs =>
      let r := shareRounds k (u.filter fun x => !fits x) (h - Claim.total (f :: fs))
      ((f :: fs).map (fun x => (x.load, x.request)) ++ r.1, r.2 + 1)

/-- The grants of the participants for a headroom, with the number of rounds (R82, R83). -/
def divide (u : List Claim) (h : Nat) : List (Load × Nat) × Nat :=
  if Claim.total u ≤ h then (u.map fun x => (x.load, x.request), 0) else shareRounds 5 u h

/-- The loads that take part in an allocation (R82). -/
def LoadTable.claims (t : LoadTable) : List Claim :=
  (Load.list.filter fun l => !(t.loads.get l).forced && (t.loads.get l).request ≠ 0).map fun l =>
    ⟨l, (t.loads.get l).weight, (t.loads.get l).request⟩

/-- The grant of one load in a division; a load that takes no part receives 0 (R82). -/
def grantOf (g : List (Load × Nat)) (l : Load) : Nat :=
  match g.find? fun x => x.1 = l with
  | some x => x.2
  | none => 0

/-- An entry with its new grant, duty and clipped flag (R86, R90). -/
def LoadEntry.grantedAt (e : LoadEntry) (isBay : Bool) (g : Nat) : LoadEntry :=
  { e with grant := g, duty := 1000 * g / e.full, clipped := isBay && !e.forced && g < e.request }

/-- A new duty acts at once on its output: it can only shorten the on-time of the period in progress (R87). -/
def HeatOut.withDuty (h : HeatOut) (duty : Nat) : HeatOut := { h with onTime := min h.onTime (2 * duty) }

/-- One allocation on the table for a headroom (R82 to R86, R90), with its number (R191). -/
def LoadTable.allocate (t : LoadTable) (h : Nat) : LoadTable :=
  let r := divide t.claims h
  let entry (l : Load) : LoadEntry := (t.loads.get l).grantedAt (l ≠ .l0) (grantOf r.1 l)
  let out (l : Load) : HeatOut := (t.heat.get l).withDuty (entry l).duty
  { t with
    loads := ⟨entry .l0, ⟨entry (.bay .b1), entry (.bay .b2), entry (.bay .b3), entry (.bay .b4)⟩⟩
    heat := ⟨out .l0, ⟨out (.bay .b1), out (.bay .b2), out (.bay .b3), out (.bay .b4)⟩⟩
    headroom := h
    unallocated := h - (Load.list.map (grantOf r.1)).sum
    rounds := r.2
    number := t.number + 1 }

/-- H = B − S − (P_comp while the compressor runs), not below 0 (R77). -/
def Part.headroomNow (s : Part) : Nat :=
  s.live.budget - s.live.standing - (if s.comp.running then s.table.pComp else 0)

/-- An allocation on the part's table, and nothing else: `Part.allocate` adds what a changed L0 duty sets off. -/
def Part.divideHeadroom (s : Part) : Part := s.setTable (s.table.allocate s.headroomNow)

/-- Admission of a compressor start (R78). -/
def Part.admits (s : Part) : Bool := s.live.standing + s.table.pComp ≤ s.live.budget

/-- Full power at a clamped voltage (R73). -/
def fullPower (rating v vNom : Nat) : Nat := rating * (v * v) / (vNom * vNom)

/-- The actual power of a load (R88). -/
def LoadEntry.actual (e : LoadEntry) : Nat := e.duty * e.full / 1000

/-- The request of a manual duty (R92). -/
def LoadEntry.manualRequest (e : LoadEntry) (d : Nat) : Nat := d * e.full / 1000

/-- Steps 2 and 3 of R73 for one load: the new full power, and the request lowered to it, or recomputed from the
manual duty where the load has one (R92). -/
def LoadEntry.atFull (e : LoadEntry) (full : Nat) : LoadEntry :=
  let e := { e with full := full }
  match e.manual with
  | some d => { e with request := e.manualRequest d }
  | none => { e with request := min e.request full }

/-- Steps 1 to 3 of R73: the voltage average clamped, every full power and request renewed. -/
def LoadTable.renewFull (t : LoadTable) : LoadTable :=
  let v := max 180 (min 264 t.vAvg)
  { t with vClamped := v, loads := t.loads.map fun e => e.atFull (fullPower e.rating v t.vNom) }

/-- The live weights written into their entries (R94). -/
def LoadTable.withWeights (t : LoadTable) (c : Settings) : LoadTable :=
  { t with
    loads :=
      ⟨{ t.loads.l0 with weight := c.w0 },
       ⟨{ t.loads.bays.b1 with weight := c.w.b1 }, { t.loads.bays.b2 with weight := c.w.b2 },
        { t.loads.bays.b3 with weight := c.w.b3 }, { t.loads.bays.b4 with weight := c.w.b4 }⟩⟩ }

/-- The staged-class values applied at a plant restart: ratings, V_nom and P_comp; no full power is recomputed (R74). -/
def LoadTable.applyRestart (t : LoadTable) (c : Settings) : LoadTable :=
  { t with
    pComp := c.pComp
    vNom := c.vNom
    loads :=
      ⟨{ t.loads.l0 with rating := c.r0 },
       ⟨{ t.loads.bays.b1 with rating := c.r.b1 }, { t.loads.bays.b2 with rating := c.r.b2 },
        { t.loads.bays.b3 with rating := c.r.b3 }, { t.loads.bays.b4 with rating := c.r.b4 }⟩⟩ }

/-- Every load with this manual duty and a request of 0: at the entry to MANUAL (R92) and at leaving it (R93). -/
def LoadTable.withManual (t : LoadTable) (m : Option Nat) : LoadTable :=
  { t with loads := t.loads.map fun e => { e with manual := m, request := 0 } }

end Sys2Proof.Machine
end

