-- ==== Sys2Proof/Machine/TripUnit.lean ====
section
/-! DEFINITION. Sys2Proof/Machine/TripUnit.lean: what a trip activation does (chapter 7), down to the lock of the boiler,
the release of the manifold and the entry to plant MANUAL that a freed manifold may complete (R180); and, above it,
the allocation event with the LOWW arming that a changed L0 duty may bring (R149), and the delivery of a request (R75).
The order of these definitions follows their use: a boiler-class activation can set off no other. -/

namespace Sys2Proof.Machine

/-! ## Counting and recording -/

/-- A fault fills an empty first-fault record and raises FAULT, and is counted either way (R156, R157). -/
def Part.recordFault (s : Part) (c : FaultCause) : Part :=
  let s := s.setTrips { s.trips with faultCount := satAdd 255 s.trips.faultCount 1 }
  match s.trips.first with
  | some _ => s
  | none =>
    (s.setTrips { s.trips with
      first := some { cause := c, seconds := s.trips.seconds, mode := s.mode, tb := s.boiler.tb,
                      volts := s.table.vAvg } }).raiseSp .fault

/-- Every activation raises TRIP, increments its class counter and is recorded (R155, R156, R157). -/
def Part.countTrip (s : Part) (t : Trip) : Part :=
  let s := s.raiseSp .trip
  let c := s.counters.plant
  let s := s.setPlantCounters
    (match t with
     | .ovp | .ovt | .loww | .feed | .sensor => { c with boilerTrips := c.boilerTrips + 1 }
     | .tank | .cond => { c with supplyTrips := c.supplyTrips + 1 }
     | .brown => { c with mainsTrips := c.mainsTrips + 1 })
  s.recordFault (.trip t)

/-! ## What a latch moves -/

/-- The purge timer started with a gap, in seconds: it runs on to the later end, and a gap of 0 starts nothing (R116). -/
def Steam.startPurge (a : Steam) (gap : Nat) : Steam :=
  if gap = 0 then a else { a with purge := some (max (a.purge.getD 0) (gap * 1000)) }

/-- The boiler with everything that an entry to LOCKED, COLD or MANUAL clears (R102, R103). -/
def Boiler.cleared (x : Boiler) (st : BoilerState) : Boiler :=
  { x with state := st, strokes := 0, refill := false, idle := 0, manualStrokes := 0, feed := none }

/-- LOWW's arming recomputed where it can only disarm or stay. -/
def Part.refreshArming (s : Part) : Part := s.setTrips { s.trips with armed := s.lowwArmedNow }

/-- The entry to plant MANUAL (R180): MODE is raised, the boiler becomes MANUAL unless LOCKED, and every heater has a
manual duty and a request of 0. -/
def Part.enterManual (s : Part) : Part :=
  let s := (s.setMode .manual).raiseSp .mode
  let s := if s.boiler.state = .locked then s else s.setBoiler (s.boiler.cleared .manual)
  ((s.setTable (s.table.withManual (some 0))).divideHeadroom).refreshArming

/-- The completion test of MANUAL_PENDING (R180). -/
def Part.completionTest (s : Part) : Part :=
  if s.mode = .manualPending && s.steam.manifold = .free && !s.comp.running then s.enterManual else s

/-- The steam arbiter at a boiler-class latch (R122): an automatic holder goes to the head of the queue, the slice
stops, a valve that closes starts the purge timer, and the manifold is FREE. -/
def Steam.releaseByTrip (a : Steam) (gap : Nat) : Steam :=
  let a := if a.manifold = .open then a.startPurge gap else a
  { a with
    queue := (match a.holder with
      | .auto b => b :: a.queue
      | _ => a.queue)
    holder := .none, slice := none, manifold := .free }

/-- A heater request of 0 for L0 from the boiler, which plant MANUAL does not take (R75). -/
def Part.dropBoilerRequest (s : Part) : Part :=
  if s.mode = .manual then s else (s.setLoad .l0 { s.load .l0 with request := 0 }).divideHeadroom

/-- L0's forced flag set, unless BROWN has set it; in MANUAL its manual duty and request become 0 (R89, R152). -/
def Part.forceBoilerHeater (s : Part) : Part :=
  let e := s.load .l0
  if e.forced then s
  else
    let e := { e with forced := true }
    (s.setLoad .l0 (if s.mode = .manual then { e with manual := some 0, request := 0 } else e)).divideHeadroom

/-- The effects of the first boiler-class latch (R152): the forced outputs, L0's forced flag, the boiler LOCKED (R102),
LOWW disarmed and the manifold released (R122). -/
def Part.lockout (s : Part) : Part :=
  let s := s.forceBoilerHeater
  let s := (s.setBoiler (s.boiler.cleared .locked)).dropBoilerRequest.refreshArming
  let wasFree := s.steam.manifold = .free
  let s := s.setSteam (s.steam.releaseByTrip s.live.purgeGap)
  if wasFree then s else s.completionTest

/-- The activation of a boiler-class trip (R152). -/
def Part.activateBoiler (s : Part) (t : Trip) : Part :=
  let s := s.countTrip t
  if s.trips.latches.get t then s
  else
    let further := s.boilerLatched
    let s := s.setTrips { s.trips with latches := s.trips.latches.latch t }
    let s := if further then s else s.lockout
    s.raisePlantNonIdle

/-! ## Arming, allocation events and deliveries -/

/-- LOWW's arming recomputed at a change of the boiler's state or of L0's duty; LOWW becoming armed on an ACTIVE input
is an activation (R149). -/
def Part.rearm (s : Part) : Part :=
  let activates := !s.trips.armed && s.lowwArmedNow && s.trips.inputs.loww.active
  let s := s.refreshArming
  if activates then s.activateBoiler .loww else s

/-- An allocation event (R81). A MANUAL boiler's arming follows L0's duty (R149). -/
def Part.allocate (s : Part) : Part :=
  let s := s.divideHeadroom
  if s.boiler.state = .manual then s.rearm else s

/-- A bay's clipped second is counted when the delivery's own allocation marks the bay clipped (R91). -/
def Part.countClipped (s : Part) (l : Load) : Part :=
  match l with
  | .l0 => s
  | .bay b =>
    if (s.load l).clipped then
      let c := s.bayCounters b
      s.setBayCounters b { c with clipped := c.clipped + 1 }
    else s

/-- A loop's or a runner's delivery of a request (R75): limited to F, an allocation event, and not taken in MANUAL. -/
def Part.deliver (s : Part) (l : Load) (q : Nat) : Part :=
  if s.mode = .manual then s
  else
    let e := s.load l
    ((s.setLoad l { e with request := min q e.full }).allocate).countClipped l

/-- The boiler changes its state and hands the change to the Trip Unit (R149). -/
def Part.setBoilerState (s : Part) (x : Boiler) : Part := (s.setBoiler x).rearm

end Sys2Proof.Machine
end

