-- ==== Sys2Proof/Machine/AirService.lean ====
section
/-! DEFINITION. Sys2Proof/Machine/AirService.lean: the compressor controller and the air arbiter (chapter 6). -/

namespace Sys2Proof.Machine

/-! ## The compressor controller -/

/-- STARTING or ONLINE: the modes of automatic operation (R131, R137, R138). -/
def Mode.automatic : Mode → Bool
  | .starting | .online => true
  | .offline | .manualPending | .manual => false

/-- An admitted start (R137): one event with its allocation (R79). -/
def Part.compStart (s : Part) : Part :=
  let c := s.counters.plant
  let s := s.setComp ⟨true, .running Config.onTimeMs, .stopped⟩
  (s.setPlantCounters { c with starts := c.starts + 1 }).allocate

/-- The first four conditions of a start of the controller's own accord, and the Allocator's admission (R137, R78). -/
def Part.mayStart (s : Part) : Bool :=
  !s.comp.running && !s.air.holders.isEmpty && !s.condActive && !s.brownActive && s.mode.automatic
    && s.comp.offTimer = .expired && s.admits

/-- The start test (R137). -/
def Part.startTest (s : Part) : Part := if s.mayStart then s.compStart else s

/-- A stop of a RUNNING compressor, ordinary or immediate (R138, R139); the Supervisor is told of it (R180). -/
def Part.compStop (s : Part) : Part :=
  if s.comp.running then
    ((s.setComp ⟨false, .stopped, .running Config.offTimeMs⟩).allocate).completionTest
  else s

/-- The ordinary stop test (R138). -/
def Part.ordinaryStopTest (s : Part) : Part :=
  if s.mode.automatic && s.air.holders.isEmpty && s.comp.onTimer = .expired then s.compStop else s

/-! ## The air arbiter -/

/-- The head of the queue becomes the most recently granted holder, with a new hold (R131). -/
def Air.grantHead (a : Air) (airSlice : Nat) : Air :=
  match a.queue with
  | [] => a
  | b :: rest => { a with queue := rest, holders := a.holders ++ [⟨b, 0, airSlice⟩] }

/-- The conditions of a grant (R131). -/
def Part.mayGrantAir (s : Part) : Bool :=
  s.air.holders.length < s.live.capacity && !s.air.queue.isEmpty && s.mode.automatic

/-- Grants from the head of the queue, each handed to the compressor controller for its start test, until a condition
fails (R131). The first argument bounds the grants by the length of the queue. -/
def Part.grantAirUpTo : Nat → Part → Part
  | 0, s => s
  | n + 1, s =>
    if s.mayGrantAir then Part.grantAirUpTo n (s.setAir (s.air.grantHead s.live.airSlice)).startTest else s

/-- The grant test (R131). -/
def Part.airGrantTest (s : Part) : Part := Part.grantAirUpTo s.air.queue.length s

/-- The grant test after holders have left; a holder set that stays empty is handed to the compressor controller
(R133, R138; log entry 11). -/
def Part.airSettle (s : Part) : Part :=
  let s := s.airGrantTest
  if s.air.holders.isEmpty then s.ordinaryStopTest else s

/-- A bay joins the tail of the queue (R130). -/
def Part.airJoin (s : Part) (b : Bay) : Part :=
  (s.setAir { s.air with queue := s.air.queue ++ [b] }).airGrantTest

def Air.without (a : Air) (b : Bay) : Air := { a with holders := a.holders.filter fun h => h.bay ≠ b }

/-- A bay leaves the air service at the withdrawal of its demand: the queue or the holder set, its heater request
falling to 0 (R65, R130, R133; log entry 8). -/
def Part.airLeave (s : Part) (b : Bay) : Part :=
  let wasHolder := s.air.isHolder b
  let a := s.air.without b
  let s := (s.setAir { a with queue := a.queue.erase b }).deliver (.bay b) 0
  if wasHolder then s.airSettle else s

/-- A hold that expires (R132): the holder goes to the tail of the queue with its request at 0, or its hold restarts
when no bay waits. -/
def Part.expireHold (s : Part) (b : Bay) : Part :=
  if s.air.queue.isEmpty then
    s.setAir { s.air with
      holders := s.air.holders.map fun h => if h.bay = b then ⟨b, 0, s.live.airSlice⟩ else h }
  else
    let a := s.air.without b
    (s.setAir { a with queue := a.queue ++ [b] }).deliver (.bay b) 0

/-- The holder with the shortest hold timer, between equals the most recently granted (R134). -/
def Air.shortestHold (a : Air) : Option AirHolder :=
  a.holders.foldl (fun best h =>
    match best with
    | none => some h
    | some m => if h.heldMs ≤ m.heldMs then some h else some m) none

/-- The bays that a capacity below the number of holders returns, the shortest hold first (R134). -/
def Air.surplus : Nat → Air → List Bay
  | 0, _ => []
  | n + 1, a =>
    match a.shortestHold with
    | none => []
    | some h => h.bay :: Air.surplus n (a.without h.bay)

/-- A change of C from `old` (R134): a raise may grant; a lowering to no fewer than the holders leaves the holder set; a
lowering below their number returns the shortest holds to the head of the queue, the most recently granted of them
first. -/
def Part.capacityChanged (s : Part) (old : Nat) : Part :=
  let out := s.air.surplus (s.air.holders.length - s.live.capacity)
  if out.isEmpty then if old < s.live.capacity then s.airGrantTest else s
  else
    let returned := ((s.air.holders.filter fun h => h.bay ∈ out).map AirHolder.bay).reverse
    let kept := s.air.holders.filter fun h => h.bay ∉ out
    let s := s.setAir { s.air with holders := kept, queue := returned ++ s.air.queue }
    out.foldl (fun s b => s.deliver (.bay b) 0) s

end Sys2Proof.Machine
end

