-- ==== Sys2Proof/Machine/SteamService.lean ====
section
/-! DEFINITION. Sys2Proof/Machine/SteamService.lean: the steam arbiter and the boiler controller's changes of state
(chapter 5). The boiler's second stands in PlantCommands.lean. -/

namespace Sys2Proof.Machine

/-! ## The steam arbiter -/

/-- The bay that holds the manifold. -/
def Holder.bay : Holder → Option Bay
  | .none => .none
  | .auto b => some b
  | .manual b => some b

/-- The conditions under which an automatic holder's valve opens (R115). -/
def Part.valveMayOpen (s : Part) (b : Bay) : Bool :=
  s.boiler.state = .ready && s.mode = .online && s.steam.purge.isNone && !s.boilerLatched && (s.runner b).shut

/-- The grant test (R114): the head of the queue becomes the automatic holder, OPEN or STALLED (R115, R117). -/
def Part.steamGrantTest (s : Part) : Part :=
  match s.steam.queue with
  | [] => s
  | b :: rest =>
    if s.steam.manifold = .free && s.mode = .online && !s.boilerLatched then
      s.setSteam { s.steam with
        queue := rest, holder := .auto b, slice := some (s.live.slice * 1000),
        manifold := if s.valveMayOpen b then .open else .stalled }
    else s

/-- A STALLED holder's valve opens when the last missing condition has become true (R117). -/
def Part.openFromStall (s : Part) : Part :=
  match s.steam.manifold, s.steam.holder with
  | .stalled, .auto b => if s.valveMayOpen b then s.setSteam { s.steam with manifold := .open } else s
  | _, _ => s

/-- The passage to FREE (R120): the grant test, and a report to the Supervisor when the manifold remains FREE. -/
def Part.manifoldFree (s : Part) : Part :=
  let s := (s.setSteam { s.steam with manifold := .free }).steamGrantTest
  if s.steam.manifold = .free then s.completionTest else s

/-- The holder leaves the manifold: its valve closes, the purge timer starts and the manifold becomes PURGE, which
passes at once to FREE when no purge timer runs (R116, R119, R120, R121). A release that starts no timer, with an earlier
one still running, stays in PURGE until that one ends: DESIGN CHOICE, unsafe (log entry 27). -/
def Part.releaseHolder (s : Part) : Part :=
  let a := { s.steam with holder := .none, slice := none, manifold := .purge }.startPurge s.live.purgeGap
  let s := s.setSteam a
  if s.steam.purge.isNone then s.manifoldFree else s

/-- An OPEN automatic holder stalls: its valve closes and the purge timer starts (R117, R123). -/
def Part.stallManifold (s : Part) : Part :=
  match s.steam.manifold, s.steam.holder with
  | .open, .auto _ => s.setSteam ({ s.steam with manifold := .stalled }.startPurge s.live.purgeGap)
  | _, _ => s

/-- A bay joins the tail of the steam queue unless it is the holder (R113); a join to an empty queue wakes a KEEPWARM
boiler (R101), and the grant test follows. -/
def Part.steamJoin (s : Part) (b : Bay) : Part :=
  if s.steam.holder.bay = some b || b ∈ s.steam.queue then s
  else
    let wakes := s.steam.queue.isEmpty && s.boiler.state = .keepwarm
    let s := s.setSteam { s.steam with queue := s.steam.queue ++ [b] }
    let s := if wakes then s.setBoilerState { s.boiler with state := .heating } else s
    s.steamGrantTest

/-- A bay's STEAM demand is withdrawn: it leaves the queue, or leaves the manifold it holds (R113, R119). -/
def Part.steamLeave (s : Part) (b : Bay) : Part :=
  let s := s.setSteam { s.steam with queue := s.steam.queue.erase b }
  if s.steam.holder = .auto b then s.releaseHolder else s

/-- A bay's closure is reported OPEN to the arbiter (R121). -/
def Part.steamClosureOpen (s : Part) (b : Bay) : Part :=
  let s := s.setSteam { s.steam with queue := s.steam.queue.erase b }
  if s.steam.holder.bay = some b then s.releaseHolder else s

/-! ## The boiler controller's changes of state -/

/-- Entry to FILLING, which passes on to HEATING when PROBE_HI already reads WET (R99). -/
def Part.boilerFill (s : Part) : Part :=
  let x := { s.boiler with strokes := 0, refill := false }
  s.setBoilerState { x with state := if x.hiWet then .heating else .filling }

/-- Entry to COLD from any state but LOCKED (R103): what the entry clears, a request of 0, and READY's end handed to
the arbiter (R98). -/
def Part.boilerCold (s : Part) : Part :=
  if s.boiler.state = .locked || s.boiler.state = .cold then s
  else
    ((s.setBoilerState (s.boiler.cleared .cold)).stallManifold).deliver .l0 0

/-- A LOCKED boiler whose last boiler-class trip has been cleared leaves LOCKED by the plant mode (R102). -/
def Part.boilerUnlock (s : Part) : Part :=
  match s.mode with
  | .offline | .manualPending => (s.setBoilerState (s.boiler.cleared .cold)).deliver .l0 0
  | .starting | .online => s.boilerFill
  | .manual => s.setBoilerState (s.boiler.cleared .manual)

end Sys2Proof.Machine
end

