-- ==== Sys2Proof/Machine/PhaseStore.lean ====
section
/-! DEFINITION. Sys2Proof/Machine/PhaseStore.lean: the bay lists, the pool and the tags (chapter 2), and the changes that
the runner has the Store make (section 2.6). -/

namespace Sys2Proof.Machine

def Record.isPending (r : Record) : Bool := r.phase = .pending

def Record.isCurrent (r : Record) : Bool :=
  match r.phase with
  | .current _ => true
  | _ => false

def Record.isDone (r : Record) : Bool :=
  match r.phase with
  | .done _ => true
  | _ => false

/-- The working fields on becoming CURRENT (R21). -/
def Work.fresh : Work := { sub := .burst, burstMg := 0, airing := 0, steamCarry := 0, heatCarry := 0 }

/-- The current record of a list, with its working fields. -/
def currentOf : List Record → Option (Record × Work)
  | [] => none
  | r :: rs =>
    match r.phase with
    | .current w => some (r, w)
    | _ => currentOf rs

/-- The current record changed in place. -/
def mapCurrent (f : Record → Record) (rs : List Record) : List Record :=
  rs.map fun r => if r.isCurrent then f r else r

/-- The current record becomes DONE in its place (R36). -/
def endCurrent (o : RecordEnd) : List Record → List Record := mapCurrent fun r => { r with phase := .done o }

/-- Every pending record becomes DONE, in list order (R37, R38). -/
def endPending (o : RecordEnd) (rs : List Record) : List Record :=
  rs.map fun r => if r.isPending then { r with phase := .done o } else r

/-- The first pending record becomes CURRENT in its place (R35). -/
def promote : List Record → List Record
  | [] => []
  | r :: rs => if r.isPending then { r with phase := .current .fresh } :: rs else r :: promote rs

def countPending (rs : List Record) : Nat := rs.countP Record.isPending
def countDone (rs : List Record) : Nat := rs.countP Record.isDone

/-- The pending record with this tag leaves the list (R32). -/
def dropPending (tag : Byte) (rs : List Record) : List Record :=
  rs.filter fun r => !(r.isPending && r.tag = tag)

/-- Slots in use: the sum of the lengths of the four lists (R24). -/
def Part.slotsUsed (s : Part) : Nat := (Bay.list.map fun b => (s.list b).length).sum

def Part.freeSlots (s : Part) : Nat := Config.poolSlots - s.slotsUsed

/-- The tag that the Store chooses: the first value from the counter on that no record of the list holds (R26). The
first argument bounds the search by the length of the list. -/
def chooseTag (rs : List Record) : Nat → Byte → Byte
  | 0, t => t
  | n + 1, t => if rs.any fun r => r.tag = t then chooseTag rs n (t + 1) else t

/-- A record as APPEND adds it (R31). -/
def freshRecord (tag : Byte) (flags : Bool × Bool) (body : Body) : Record :=
  { tag := tag, notify := flags.1, holdAfter := flags.2, body := body, phase := .pending
    activeS := 0, servedS := 0, pausedS := 0, starvedS := 0 }

/-- The current record of a bay, with its working fields. -/
def Part.current (s : Part) (b : Bay) : Option (Record × Work) := currentOf (s.list b)

/-- The bay's current record changed in place. -/
def Part.updateCurrent (s : Part) (b : Bay) (f : Record → Record) : Part := s.setList b (mapCurrent f (s.list b))

/-! ## The requests APPEND, WITHDRAW and COLLECT

A request's owner answers the part after it and the result with the reply's data. -/

/-- What an owner returns: the part, the result and the data (R8). -/
abbrev Answer := Part × Result × List Byte

/-- A request refused by its owner, without effect (R10). -/
def Part.refuse (s : Part) (r : Result) : Answer := (s, r, [])

/-- A request carried out that has no data. -/
def Part.accept (s : Part) : Answer := (s, .ok, [])

/-- APPEND (R29 to R31). -/
def Part.append (s : Part) (b : Bay) (args : List Byte) : Answer :=
  match appendBody args with
  | none => s.refuse .args
  | some (flags, body, clampedSet) =>
    let rs := s.list b
    if s.freeSlots = 0 || Config.listMax ≤ rs.length then s.refuse .noSlot
    else
      let tag := chooseTag rs rs.length (s.store.get b).nextTag
      let s := { s with store := s.store.set b ⟨rs ++ [freshRecord tag flags body], tag + 1⟩ }
      (s, .ok, [tag, clampedSet, byteOf s.freeSlots])

/-- WITHDRAW (R32). -/
def Part.withdrawRecord (s : Part) (b : Bay) (args : List Byte) : Answer :=
  match args with
  | [tag] =>
    if (s.list b).any fun r => r.isPending && r.tag = tag then (s.setList b (dropPending tag (s.list b))).accept
    else s.refuse .state
  | _ => s.refuse .args

/-- The COLLECT record of a DONE record (section 10.4). -/
def Record.collectBytes (r : Record) (o : RecordEnd) (remaining : Nat) : List Byte :=
  [r.tag, r.body.kindCode, r.flagsMask, o.code] ++ r.body.paramBytes
    ++ le16 r.activeS ++ le16 r.servedS ++ le16 r.pausedS ++ le16 r.starvedS
    ++ r.body.progressBytes ++ [byteOf remaining]

/-- COLLECT (R33): the head of the list is its oldest DONE record, if it has one (R25). -/
def Part.collect (s : Part) (b : Bay) (args : List Byte) : Answer :=
  if args ≠ [] then s.refuse .args
  else
    match s.list b with
    | [] => s.accept
    | r :: rs =>
      match r.phase with
      | .done o => (s.setList b rs, .ok, r.collectBytes o (countDone rs))
      | _ => s.accept

end Sys2Proof.Machine
end

