-- ==== Sys2Proof/Machine/Runner.lean ====
section
/-! DEFINITION. Sys2Proof/Machine/Runner.lean: the bay runners (chapter 3): demand, causes, the end of a record, aborts,
link loss, the requests of the bay ports and the runner's second. -/

namespace Sys2Proof.Machine

/-! ## Demand (section 3.8) -/

/-- The demand of a RUNNING runner by its current record (R64). -/
def demandFor : Option (Record × Work) → Demand
  | none => .none
  | some (r, w) =>
    match r.body with
    | .steam .. => .steam
    | .dry t _ _ => .air t
    | .refresh _ _ _ t _ _ _ _ =>
      match w.sub with
      | .burst => .steam
      | .airing => .air t
    | .rest _ => .none

/-- The runner places the demand of its current record on the arbiters (R65). -/
def Part.placeDemand (s : Part) (b : Bay) : Part :=
  let d := demandFor (s.current b)
  let s := s.setRunner b { s.runner b with demand := d }
  match d with
  | .none => s
  | .steam => s.steamJoin b
  | .air _ => s.airJoin b

/-- The runner withdraws its demand from the arbiters (R65). -/
def Part.withdrawDemand (s : Part) (b : Bay) : Part :=
  let d := (s.runner b).demand
  let s := s.setRunner b { s.runner b with demand := .none }
  match d with
  | .none => s
  | .steam => s.steamLeave b
  | .air _ => s.airLeave b

/-! ## The cause set (section 3.2) -/

def Causes.empty (c : Causes) : Bool := !c.request && !c.closure && !c.plant

/-- A changed cause set moves a runner between RUNNING and PAUSED, with its demand (R44). -/
def Part.recheck (s : Part) (b : Bay) : Part :=
  let r := s.runner b
  match r.state, r.causes.empty with
  | .running, false => (s.setRunner b { r with state := .paused }).withdrawDemand b
  | .paused, true => (s.setRunner b { r with state := .running }).placeDemand b
  | _, _ => s

/-- The runner's cause set becomes `c` (R43, R44). -/
def Part.setCauses (s : Part) (b : Bay) (c : Causes) : Part :=
  (s.setRunner b { s.runner b with causes := c }).recheck b

/-- The modes that hold every runner paused (R43). -/
def Mode.pauses : Mode → Bool
  | .offline | .manualPending | .manual => true
  | .starting | .online => false

/-- A mode change reaches one runner: PLANT joins or leaves its cause set, and a non-IDLE runner raises PLANT (R45). -/
def Part.setPlantCause (s : Part) (b : Bay) (member : Bool) : Part :=
  let r := s.runner b
  if r.causes.plant = member then s
  else
    let s := if r.state = .idle then s else s.raiseBay b .plant
    s.setCauses b { r.causes with plant := member }

/-! ## Taking and ending records (section 3.5) -/

/-- Entry to IDLE (R54): REQUEST leaves the set, the unserved run becomes 0 and the alert mark is cleared. -/
def Part.enterIdle (s : Part) (b : Bay) : Part :=
  let r := s.runner b
  s.setRunner b { r with
    state := .idle, causes := { r.causes with request := false }, unserved := 0, alert := false }

/-- The runner takes the first pending record (R35, R44, R54). -/
def Part.takeNext (s : Part) (b : Bay) : Part :=
  let s := s.setList b (promote (s.list b))
  let r := { s.runner b with unserved := 0, alert := false }
  if r.causes.empty then (s.setRunner b { r with state := .running }).placeDemand b
  else s.setRunner b { r with state := .paused }

/-- The current record ends COMPLETE, SHORT or CUT, and the runner moves on (R54). -/
def Part.endRecord (s : Part) (b : Bay) (o : RecordEnd) : Part :=
  match s.current b with
  | none => s
  | some (r, _) =>
    let s := (s.setList b (endCurrent o (s.list b))).countEnd b o
    let s := s.withdrawDemand b
    let s := if r.notify then s.raiseBay b .done else s
    let more := 0 < countPending (s.list b)
    if r.holdAfter && more then
      (s.setRunner b { s.runner b with state := .held, unserved := 0, alert := false }).raiseBay b .held
    else if more then s.takeNext b
    else (s.enterIdle b).raiseBay b .ended

/-- The pending records of an aborted programme become NOT_RUN, each counted (R37, R52). -/
def Part.dropProgramme (s : Part) (b : Bay) : Part :=
  let n := countPending (s.list b)
  let c := s.bayCounters b
  (s.setList b (endPending .notRun (s.list b))).setBayCounters b { c with cut := c.cut + BitVec.ofNat 32 n }

/-- An abort of a bay's programme, by RUN_ABORT or BAY_ABORT (R52, R53). -/
def Part.abortBay (s : Part) (b : Bay) : Answer :=
  match (s.runner b).state with
  | .running | .paused =>
    let notify := match s.current b with
      | some (r, _) => r.notify
      | none => false
    let s := (s.setList b (endCurrent .aborted (s.list b))).countEnd b .aborted
    let s := ((s.withdrawDemand b).dropProgramme b).enterIdle b
    let s := if notify then s.raiseBay b .done else s
    (s.raiseBay b .ended).accept
  | .held => (((s.dropProgramme b).enterIdle b).raiseBay b .ended).accept
  | .idle =>
    if countPending (s.list b) = 0 then s.refuse .state
    else (((s.dropProgramme b).enterIdle b).raiseBay b .ended).accept

/-! ## The closure (section 3.3) and link loss (section 3.10) -/

/-- The closure becomes OPEN: CLOSURE joins the cause set and the steam arbiter is told (R46, R121). -/
def Part.openClosure (s : Part) (b : Bay) : Part :=
  let r := s.runner b
  let s := (s.setRunner b { r with shut := false }).steamClosureOpen b
  s.setCauses b { (s.runner b).causes with closure := true }

/-- The closure becomes SHUT: CLOSURE leaves the cause set (R46). -/
def Part.shutClosure (s : Part) (b : Bay) : Part :=
  let r := s.runner b
  (s.setRunner b { r with shut := true }).setCauses b { r.causes with closure := false }

/-- The bay's heater request becomes 0 at its link loss (R68, R71); in MANUAL its manual duty does too (R92), and a
damper opened by hand closes (R135). Where the allocation in MANUAL raises L0's duty from 0, LOWW is armed by R149, though R146
has a link loss leave the Trip Unit unchanged: DESIGN CHOICE, unsafe (log entry 30). -/
def Part.dropBayHeat (s : Part) (b : Bay) : Part :=
  let s := s.setAir { s.air with marks := s.air.marks.set b false }
  if s.mode = .manual then
    (s.setLoad (.bay b) { s.load (.bay b) with manual := some 0, request := 0 }).allocate
  else s.deliver (.bay b) 0

/-- LINK LOSS of a bay (R68, with R39, R46, R171). -/
def Part.linkLoss (s : Part) (b : Bay) : Part :=
  let s := if (s.runner b).state = .running then s.withdrawDemand b else s
  let s := s.dropBayHeat b
  let s := { s with store := s.store.set b ⟨[], 0⟩ }
  let s := s.enterIdle b
  let s := if (s.runner b).shut then s.openClosure b else s.steamClosureOpen b
  let s := s.setNotice (.bp b) ⟨0, 0x1F⟩
  s.raiseSp .link

/-! ## Requests of the bay ports (section 3.4) -/

/-- RUN_START (R48). -/
def Part.runStart (s : Part) (b : Bay) (args : List Byte) : Answer :=
  if args ≠ [] then s.refuse .args
  else if (s.runner b).state = .idle && 0 < countPending (s.list b) then (s.takeNext b).accept
  else s.refuse .state

/-- RUN_PAUSE (R49). -/
def Part.runPause (s : Part) (b : Bay) (args : List Byte) : Answer :=
  if args ≠ [] then s.refuse .args
  else
    match (s.runner b).state with
    | .running | .paused => (s.setCauses b { (s.runner b).causes with request := true }).accept
    | .idle | .held => s.refuse .state

/-- RUN_RESUME (R50). -/
def Part.runResume (s : Part) (b : Bay) (args : List Byte) : Answer :=
  if args ≠ [] then s.refuse .args
  else
    let r := s.runner b
    match r.state with
    | .paused =>
      if r.causes.request then (s.setCauses b { r.causes with request := false }).accept else s.refuse .state
    | .held =>
      let s := s.setRunner b { r with causes := { r.causes with request := false } }
      if 0 < countPending (s.list b) then (s.takeNext b).accept
      else ((s.enterIdle b).raiseBay b .ended).accept
    | .running | .idle => s.refuse .state

/-- RUN_FINISH (R51). -/
def Part.runFinish (s : Part) (b : Bay) (args : List Byte) : Answer :=
  match args with
  | [tag] =>
    match (s.runner b).state, s.current b with
    | .running, some (r, _) | .paused, some (r, _) =>
      if r.tag = tag then (s.endRecord b .cut).accept else s.refuse .state
    | _, _ => s.refuse .state
  | _ => s.refuse .args

/-- RUN_ABORT (R52). -/
def Part.runAbort (s : Part) (b : Bay) (args : List Byte) : Answer :=
  if args ≠ [] then s.refuse .args else s.abortBay b

/-- CLOSURE_REPORT (R46): 00h OPEN, 01h SHUT. -/
def Part.closureReport (s : Part) (b : Bay) (args : List Byte) : Answer :=
  match args with
  | [x] =>
    if x = 0x00 then (if (s.runner b).shut then s.openClosure b else s).accept
    else if x = 0x01 then (if (s.runner b).shut then s else s.shutClosure b).accept
    else s.refuse .args
  | _ => s.refuse .args

/-- BAY_ABORT (R47, R53). -/
def Part.bayAbort (s : Part) (args : List Byte) : Answer :=
  match args with
  | [x] =>
    match Bay.ofByte x with
    | some b => s.abortBay b
    | none => s.refuse .args
  | _ => s.refuse .args

/-! ## The runner's second (sections 3.6 and 3.7) -/

/-- Whether the second just ended is served (R57), judged on the state as it stands at the expiry. -/
def Part.served (s : Part) (b : Bay) (r : Record) (w : Work) : Bool :=
  let bySteam := s.steam.holder.bay = some b && s.steam.manifold = .open
  let byAir := s.air.isHolder b && s.comp.running
  match r.body with
  | .steam .. => bySteam
  | .dry .. => byAir
  | .refresh .. =>
    match w.sub with
    | .burst => bySteam
    | .airing => byAir
  | .rest _ => true

/-- The count of one second in a record's 16-bit counts (R19). -/
def secAdd (n : Nat) : Nat := satAdd 65535 n 1

/-- The record's share of a RUNNING second (R57), with the airing count of R62. -/
def Record.accounted (r : Record) (w : Work) (served : Bool) : Record :=
  let w := if served && r.body.isRefresh && w.sub = .airing then { w with airing := satAdd 900 w.airing 1 } else w
  { r with
    phase := .current w
    activeS := secAdd r.activeS
    servedS := if served then secAdd r.servedS else r.servedS
    starvedS := if served then r.starvedS else secAdd r.starvedS }

/-- The runner's share of a RUNNING second: the unserved run, the starved-seconds counter and STARVED (R57, R58). -/
def Part.judged (s : Part) (b : Bay) (served : Bool) : Part :=
  let r := s.runner b
  if served then s.setRunner b { r with unserved := 0, alert := false }
  else
    let run := secAdd r.unserved
    let c := s.bayCounters b
    let s := s.setBayCounters b { c with starved := c.starved + 1 }
    if s.live.starveAlert ≤ run && !r.alert then
      (s.setRunner b { r with unserved := run, alert := true }).raiseBay b .starved
    else s.setRunner b { r with unserved := run }

/-- A REFRESH record returns to BURST: burst_mg and the steam carry are set to 0 (R62). -/
def Record.toBurst (r : Record) (w : Work) : Record :=
  { r with phase := .current { w with sub := .burst, burstMg := 0, steamCarry := 0 } }

/-- A change of sub-step: the old demand is withdrawn first and the new one placed after it (R65). -/
def Part.changeSubStep (s : Part) (b : Bay) (f : Record → Record) : Part :=
  ((s.withdrawDemand b).updateCurrent b f).placeDemand b

/-- The progress tests of a runner's second (R59, R61, R62, R63). -/
def Part.progressTest (s : Part) (b : Bay) : Part :=
  match s.current b with
  | none => s
  | some (r, w) =>
    match r.body with
    | .steam .. => s
    | .dry _ d _ => if d ≤ r.servedS then s.endRecord b .complete else s
    | .rest d => if d ≤ r.activeS then s.endRecord b .complete else s
    | .refresh _ bursts airingS _ _ _ n _ =>
      if w.sub = .airing && airingS ≤ w.airing then
        if n < bursts then s.changeSubStep b (fun r => r.toBurst w) else s.endRecord b .complete
      else s

/-- The active seconds at which a record ends SHORT (R60, R61, R62); a REST record has no such ending (R63). -/
def Body.limit : Body → Option Nat
  | .steam _ l _ => some l
  | .dry _ d _ => some (2 * d)
  | .refresh _ _ _ _ l _ _ _ => some l
  | .rest _ => none

/-- Whether the current record's active seconds have reached its limit. -/
def Record.atLimit (r : Record) : Bool :=
  match r.body.limit with
  | some l => l ≤ r.activeS
  | none => false

/-- The limit test of a runner's second, on the record that was current when it began (R59). A record that the
progress tests ended is DONE then, and the record taken after it has counted no second. -/
def Part.limitTest (s : Part) (b : Bay) (tag : Byte) : Part :=
  match s.current b with
  | some (r, _) => if r.tag = tag && r.atLimit then s.endRecord b .short else s
  | none => s

/-- The accounting and the tests at the expiry of the runner's second (R56 to R63). -/
def Part.runnerTick (s : Part) (b : Bay) : Part :=
  match (s.runner b).state, s.current b with
  | .running, some (r, w) =>
    let served := s.served b r w
    let s := (s.updateCurrent b fun r => r.accounted w served).judged b served
    (s.progressTest b).limitTest b r.tag
  | .paused, some _ => s.updateCurrent b fun r => { r with pausedS := secAdd r.pausedS }
  | _, _ => s

/-! ## The metering credit (R126) -/

/-- A credit added to `steam_mg`, stopping at the limit (R20). -/
def Body.addSteam (x : Body) (mg : Nat) : Body :=
  match x with
  | .steam d l m => .steam d l (satAdd 4294967295 m mg)
  | .refresh g n a t l m k h => .refresh g n a t l (satAdd 4294967295 m mg) k h
  | x => x

/-- The record after a credit of `mg` milligrams that leaves this carry (R126). -/
def Record.credited (r : Record) (w : Work) (mg carry : Nat) : Record :=
  let burst := if r.body.isRefresh && w.sub = .burst then satAdd 4294967295 w.burstMg mg else w.burstMg
  { r with body := r.body.addSteam mg, phase := .current { w with burstMg := burst, steamCarry := carry } }

/-- A burst counted, up to the stored number of bursts, and the record in AIRING (R62). -/
def Record.burstEnded (r : Record) (w : Work) : Record :=
  match r.body with
  | .refresh g n a t l m k h =>
    { r with
      body := .refresh g n a t l m (min n (k + 1)) h
      phase := .current { w with sub := .airing, airing := 0 } }
  | _ => r

/-- The runner's test at a credit (R60, R62). -/
def Part.creditTest (s : Part) (b : Bay) : Part :=
  match s.current b with
  | none => s
  | some (r, w) =>
    match r.body with
    | .steam d _ m => if d * 1000 ≤ m then s.endRecord b .complete else s
    | .refresh g _ _ _ _ _ _ _ =>
      if w.sub = .burst && g * 1000 ≤ w.burstMg then s.changeSubStep b (fun r => r.burstEnded w) else s
    | _ => s

/-- A metering credit to the holder bay (R125, R126). -/
def Part.credit (s : Part) (b : Bay) : Part :=
  match s.current b with
  | none => s
  | some (r, w) =>
    if r.body.hasSteam then
      let acc := w.steamCarry + (s.load .l0).actual * s.steam.yield
      let c := s.bayCounters b
      let s := s.setBayCounters b { c with steamMg := c.steamMg + BitVec.ofNat 32 (acc / 3600) }
      (s.updateCurrent b fun r => r.credited w (acc / 3600) (acc % 3600)).creditTest b
    else s

end Sys2Proof.Machine
end

