-- ==== Sys2Proof/Machine/Supervisor.lean ====
section
/-! DEFINITION. Sys2Proof/Machine/Supervisor.lean: plant modes, restart and manual operation, the configuration sets and
the counters (chapter 9), the automatic trips and FAULT_CLEAR (chapter 7), and the notice requests (chapter 8). -/

namespace Sys2Proof.Machine

/-! ## Mode changes (R173) -/

/-- A mode change hands PLANT's membership to the four runners, in the order of a free choice (R43; log entry 3). -/
def Part.handPlant (s : Part) (member : Bool) : Part :=
  let (order, s) := s.takeOrder
  order.foldl (fun s b => s.setPlantCause b member) s

/-- The mode becomes another, and MODE is raised (R173). -/
def Part.changeMode (s : Part) (m : Mode) : Part := (s.setMode m).raiseSp .mode

/-- STARTING becomes ONLINE at the boiler's entry to READY (R175): the arbiters make their grant tests. -/
def Part.goOnline (s : Part) : Part := ((s.changeMode .online).steamGrantTest.openFromStall).airGrantTest

/-- The boiler's entry to READY (R100): handed to the arbiter, and to the Supervisor (R98). -/
def Part.enterReady (s : Part) : Part :=
  let s := (s.setBoilerState { s.boiler with state := .ready, idle := 0 }).openFromStall
  if s.mode = .starting then s.goOnline else s

/-- The mode leaves automatic operation, or goes from OFFLINE to MANUAL_PENDING: an OPEN manifold stalls, every runner
is paused, and a RUNNING compressor stops at once (R123, R135, R139, R176, R179). -/
def Part.leaveAutomatic (s : Part) (m : Mode) : Part :=
  ((s.changeMode m).stallManifold.handPlant true).compStop

/-- The manual holder's valve closes and the manual holder leaves (R123). -/
def Part.releaseManualHolder (s : Part) : Part :=
  match s.steam.holder with
  | .manual _ => s.releaseHolder
  | _ => s

/-- What leaving MANUAL for OFFLINE undoes (R183, R93, R123, R135, R139). -/
def Part.undoManual (s : Part) : Part :=
  let s := s.boilerCold.releaseManualHolder
  let s := (s.setAir { s.air with marks := .all false }).compStop
  (s.setTable (s.table.withManual none)).allocate

/-- PLANT_START (R174). -/
def Part.plantStart (s : Part) (args : List Byte) : Answer :=
  if args ≠ [] then s.refuse .args
  else if s.mode ≠ .offline then s.refuse .state
  else if s.boilerLatched then s.refuse .tripped
  else (((s.changeMode .starting).boilerFill.airGrantTest).handPlant false).accept

/-- PLANT_HALT (R176). -/
def Part.plantHalt (s : Part) (args : List Byte) : Answer :=
  if args ≠ [] then s.refuse .args
  else if s.mode.automatic then (s.leaveAutomatic .offline).boilerCold.accept
  else s.refuse .state

/-- MANUAL_ENTER (R179), with the completion test of R180 in the same event. -/
def Part.manualEnter (s : Part) (args : List Byte) : Answer :=
  if args ≠ [] then s.refuse .args
  else
    match s.mode with
    | .offline | .starting | .online => (s.leaveAutomatic .manualPending).completionTest.accept
    | .manualPending | .manual => s.refuse .state

/-- MANUAL_EXIT (R183). -/
def Part.manualExit (s : Part) (args : List Byte) : Answer :=
  if args ≠ [] then s.refuse .args
  else if s.mode = .manual then (s.changeMode .offline).undoManual.accept
  else s.refuse .state

/-! ## Configuration (section 9.5) -/

/-- The live set becomes `c` (R186): the weights reach their entries; a budget or standing load that no longer admits
the running compressor stops it first (R80); then one allocation where `allocates`; then a changed C acts (R134). -/
def Part.applyLive (s : Part) (c : Settings) (testsBudget allocates : Bool) : Part :=
  let old := s.live.capacity
  let s := { s with live := c, table := s.table.withWeights c }
  let s := if testsBudget && s.comp.running && !s.admits then s.compStop else s
  let s := if allocates then s.allocate else s
  if c.capacity ≠ old then s.capacityChanged old else s

/-- The entries of a configuration request: a selector and a 16-bit value each (R185). -/
def configEntries : List Byte → Option (List (Param × Int))
  | [] => some []
  | x :: lo :: hi :: rest =>
    match Param.ofSelector x, configEntries rest with
    | some q, some es => some ((q, q.read lo hi) :: es)
    | _, _ => none
  | _ => none

/-- The checked list of a configuration request; `none` where R185 refuses it. -/
def configList (args : List Byte) : Option (List (Param × Int)) :=
  match configEntries args with
  | some es =>
    if es ≠ [] && es.length ≤ 8 && decide (es.map Prod.fst).Nodup then some es else none
  | none => none

/-- A configuration set with the entries' stored values. -/
def Settings.write (c : Settings) (es : List (Param × Int)) : Settings :=
  es.foldl (fun c e => c.set e.1 (e.1.store e.2)) c

/-- The reply to a configuration request: the stored values, then the mask of the entries clamped (R185). -/
def configReply (es : List (Param × Int)) : List Byte :=
  es.flatMap (fun e => le16 (e.1.store e.2)) ++ [maskByte (es.map fun e => ((e.1.store e.2 : Nat) : Int) ≠ e.2)]

/-- The parameters at whose writing an allocation runs (R94, R186). -/
def Param.allocates : Param → Bool
  | .budget | .standing | .w0 | .w _ => true
  | _ => false

/-- CFG_LIVE (R185, R186). -/
def Part.cfgLive (s : Part) (args : List Byte) : Answer :=
  match configList args with
  | none => s.refuse .args
  | some es =>
    if es.any fun e => e.1 ∈ Param.stagedList then s.refuse .args
    else
      let names (q : Param) : Bool := es.any fun e => e.1 = q
      (s.applyLive (s.live.write es) (names .budget || names .standing) (es.any fun e => e.1.allocates),
        .ok, configReply es)

/-- CFG_STAGE (R185, R187). -/
def Part.cfgStage (s : Part) (args : List Byte) : Answer :=
  match configList args with
  | none => s.refuse .args
  | some es => ({ s with staged := s.staged.write es }, .ok, configReply es)

/-- CFG_READ (R188): views 0 to 3. -/
def Part.cfgRead (s : Part) (args : List Byte) : Answer :=
  let view (c : Settings) (qs : List Param) : Answer := (s, .ok, qs.flatMap fun q => le16 (c.get q))
  match args with
  | [x] =>
    if x = 0 then view s.live Param.liveList
    else if x = 1 then view s.live Param.stagedList
    else if x = 2 then view s.staged Param.liveList
    else if x = 3 then view s.staged Param.stagedList
    else s.refuse .args
  | _ => s.refuse .args

/-! ## Plant restart (section 9.3) -/

/-- Step 1 of R177: RUNNING runners withdraw, current and pending records become RESTARTED, every runner is IDLE. -/
def Part.restartBays (s : Part) : Part :=
  let (order, s) := s.takeOrder
  let s := order.foldl (fun s b => if (s.runner b).state = .running then s.withdrawDemand b else s) s
  Bay.list.foldl
    (fun s b => (s.setList b (endPending .restarted (endCurrent .restarted (s.list b)))).enterIdle b) s

/-- Step 2 of R177: the staged set copied into the live set, live changes first, then the staged-class values.
DESIGN CHOICE (log entry 34, unsafe for the allocation number): R177 and R187 leave open whether a B, S or weight copied
unchanged runs an allocation; here one runs, for all of them together, only where one differs from its live value. -/
def Part.applyStaged (s : Part) : Part :=
  let c := s.staged
  let changes (q : Param) : Bool := c.get q ≠ s.live.get q
  let s := s.applyLive c true ((Param.liveList.filter Param.allocates).any changes)
  (s.setTable (s.table.applyRestart c)).setSteam { s.steam with yield := c.yield }

/-- Steps 3 and 4 of R177: the mode becomes OFFLINE and the boiler COLD. -/
def Part.restartMode (s : Part) : Part :=
  let s := match s.mode with
    | .offline => s
    | .starting | .online => s.leaveAutomatic .offline
    | .manualPending => s.changeMode .offline
    | .manual => (s.changeMode .offline).undoManual
  s.boilerCold

/-- PLANT_RESTART (R177): the counts are of the records made RESTARTED in bays 1 to 4. -/
def Part.plantRestart (s : Part) (args : List Byte) : Answer :=
  if args ≠ [] then s.refuse .args
  else
    let counts := Bay.list.map fun b => byteOf ((s.list b).countP fun r => !r.isDone)
    let listed := Bay.list.filter fun b => s.list b ≠ []
    let s := s.restartBays.applyStaged.restartMode
    (listed.foldl (fun s b => s.raiseBay b .plant) s, .ok, counts)

/-! ## Manual drives (R181, R182) -/

/-- A heater drive (R92). -/
def Part.driveHeat (s : Part) (l : Load) (duty : Nat) : Answer :=
  let e := s.load l
  let s := (s.setLoad l { e with manual := some duty, request := e.manualRequest duty }).allocate
  let e := s.load l
  (s, .ok, le16 (e.manual.getD 0) ++ le16 e.request ++ le16 e.grant ++ le16 e.duty ++ [flagByte (e.grant < e.request)])

/-- A FEED drive (R108). -/
def Part.driveFeed (s : Part) (count : Nat) : Answer :=
  match s.boiler.state with
  | .locked => s.refuse .tripped
  | .manual => (s.setBoiler { s.boiler with manualStrokes := count }, .ok, [byteOf count])
  | _ => s.refuse .state

/-- The data of a valve drive. -/
def Part.valveReply (s : Part) : Answer := (s, .ok, [s.steam.manifold.code, s.steam.holder.code])

/-- A drive that opens or closes a steam valve (R124). -/
def Part.driveValve (s : Part) (b : Bay) (isOpen : Bool) : Answer :=
  if isOpen then
    if s.boilerLatched then s.refuse .tripped
    else if s.steam.valveOpen b then s.valveReply
    else if s.steam.manifold ≠ .free || s.steam.purge.isSome || !(s.runner b).shut then s.refuse .state
    else (s.setSteam { s.steam with holder := .manual b, manifold := .open, slice := none }).valveReply
  else if s.steam.valveOpen b then s.releaseHolder.valveReply
  else s.valveReply

def Part.compReply (s : Part) : Answer := (s, .ok, [flagByte s.comp.running])

/-- A drive that starts or stops the compressor (R140). -/
def Part.driveComp (s : Part) (on : Bool) : Answer :=
  if on then
    if s.comp.running then s.compReply
    else if s.condActive || s.brownActive then s.refuse .tripped
    else if s.comp.offTimer ≠ .expired then s.refuse .state
    else if s.admits then s.compStart.compReply
    else s.refuse .state
  else if !s.comp.running then s.compReply
  else if s.comp.onTimer ≠ .expired then s.refuse .state
  else s.compStop.compReply

/-- A drive that opens or closes a damper (R135). -/
def Part.driveDamp (s : Part) (b : Bay) (isOpen : Bool) : Answer :=
  let s := if s.air.damperOpen b = isOpen then s else s.setAir { s.air with marks := s.air.marks.set b isOpen }
  (s, .ok, [flagByte (s.air.damperOpen b)])

/-- The reply of a drive carried out: the selector, the value applied, whether it was clamped, and the drive's data. -/
def driveReply (d : Drive) (value : Nat) (wasClamped : Bool) (a : Answer) : Answer :=
  match a with
  | (s, .ok, data) => (s, .ok, [d.selector] ++ le16 value ++ [flagByte wasClamped] ++ data)
  | a => a

/-- MAN_DRIVE (R181): length, selector and value code, then the mode, then the owner. -/
def Part.manDrive (s : Part) (args : List Byte) : Answer :=
  match args with
  | [x, lo, hi] =>
    let v := u16 lo hi
    match Drive.ofSelector x with
    | none => s.refuse .args
    | some d =>
      match d with
      | .heat l =>
        if s.mode ≠ .manual then s.refuse .state
        else driveReply d (min v 1000) (1000 < v) (s.driveHeat l (min v 1000))
      | .feed =>
        if s.mode ≠ .manual then s.refuse .state
        else
          let n := clampNat 1 50 v
          driveReply d n (n ≠ v) (s.driveFeed n)
      | .valve b =>
        if 1 < v then s.refuse .args
        else if s.mode ≠ .manual then s.refuse .state
        else driveReply d v false (s.driveValve b (v = 1))
      | .comp =>
        if 1 < v then s.refuse .args
        else if s.mode ≠ .manual then s.refuse .state
        else driveReply d v false (s.driveComp (v = 1))
      | .damp b =>
        if 1 < v then s.refuse .args
        else if s.mode ≠ .manual then s.refuse .state
        else driveReply d v false (s.driveDamp b (v = 1))
  | _ => s.refuse .args

/-! ## Counters (section 9.6) -/

/-- The values of a counter group, or nothing for a group outside the six (R190). -/
def Counters.group (c : Counters) (g : Byte) : Option (List Count32) :=
  let p := c.plant
  if g = 0 then
    some [p.heaterWh, p.starts, p.runSeconds, p.strokes, p.boilerTrips, p.supplyTrips, p.mainsTrips]
  else if g = 5 then some (Port.list.map c.frameErrors.get ++ Port.list.map c.overruns.get)
  else
    match Bay.ofByte g with
    | some b =>
      let x := c.bays.get b
      some [x.steamMg, x.heaterWh, x.complete, x.short, x.cut, x.starved, x.clipped]
    | none => none

/-- Every counter of a group set to 0 (R190). -/
def Counters.clear (c : Counters) (g : Byte) : Counters :=
  if g = 0 then { c with plant := Counters.reset.plant }
  else if g = 5 then { c with frameErrors := .all 0, overruns := .all 0 }
  else
    match Bay.ofByte g with
    | some b => { c with bays := c.bays.set b (Counters.reset.bays.get b) }
    | none => c

/-- CNT_READ, and CNT_READ_CLEAR where `clears` (R190). -/
def Part.readCounters (s : Part) (args : List Byte) (clears : Bool) : Answer :=
  match args with
  | [g] =>
    match s.counters.group g with
    | some xs =>
      (if clears then { s with counters := s.counters.clear g } else s, .ok, xs.flatMap fun x => le32 x.toNat)
    | none => s.refuse .args
  | _ => s.refuse .args

/-! ## Automatic trips (R153) and the brownout (R151) -/

/-- TANK becoming active or inactive. -/
def Part.tankChanged (s : Part) (active : Bool) : Part :=
  if active then
    let s := s.countTrip .tank
    s.setBoiler { s.boiler with feed := none }
  else s.raiseSp .cleared

/-- COND becoming active or inactive. -/
def Part.condChanged (s : Part) (active : Bool) : Part :=
  if active then (s.countTrip .cond).compStop else (s.raiseSp .cleared).startTest

/-- A load's entry with its forced flag set; one that is newly forced in MANUAL loses its manual duty and request (R89). -/
def LoadEntry.force (e : LoadEntry) (inManual : Bool) : LoadEntry :=
  if e.forced then e
  else if inManual then { e with forced := true, manual := some 0, request := 0 }
  else { e with forced := true }

/-- BROWN's activation (R153): L0 to L4 forced, and a RUNNING compressor stopped at once. -/
def Part.brownStarts (s : Part) : Part :=
  let s := (s.setTrips { s.trips with brownSource := true }).countTrip .brown
  let loads := s.table.loads.map fun e => e.force (s.mode = .manual)
  ((s.setTable { s.table with loads := loads }).allocate).compStop

/-- BROWN's clearing (R153): the bay heaters are released, and L0 where no boiler-class trip is latched. -/
def Part.brownEnds (s : Part) : Part :=
  let s := (s.setTrips { s.trips with brownSource := false }).raiseSp .cleared
  let ls := s.table.loads
  let loads : PerLoad LoadEntry :=
    ⟨{ ls.l0 with forced := s.boilerLatched }, ls.bays.map fun e => { e with forced := false }⟩
  ((s.setTable { s.table with loads := loads }).allocate).startTest

/-- The Trip Unit takes a voltage average (R151). -/
def Part.brownUpdate (s : Part) (v : Nat) : Part :=
  let t := s.trips
  let t := { t with
    lowRun := if v < 190 then satAdd 255 t.lowRun 1 else 0
    highRun := if 200 ≤ v then satAdd 255 t.highRun 1 else 0 }
  let s := s.setTrips t
  if !t.brownSource && 3 ≤ t.lowRun then s.brownStarts
  else if t.brownSource && 5 ≤ t.highRun then s.brownEnds
  else s

/-- A debounced trip input changes its state (R147, R148, R149, R153). -/
def Part.tripInput (s : Part) (i : TripInput) (active : Bool) : Part :=
  if (s.trips.inputs.get i).active = active then s
  else
    let s := s.setTrips { s.trips with inputs := s.trips.inputs.set i ⟨active, 0⟩ }
    match i with
    | .ovp => if active then s.activateBoiler .ovp else s
    | .ovt => if active then s.activateBoiler .ovt else s
    | .loww => if active && s.trips.armed then s.activateBoiler .loww else s
    | .tank => s.tankChanged active
    | .cond => s.condChanged active

/-! ## FAULT_CLEAR (section 7.7) -/

/-- The latches that stay: those whose source is ACTIVE (R158). -/
def TripUnit.remaining (t : TripUnit) : Latches :=
  { ovp := t.latches.ovp && t.source .ovp
    ovt := t.latches.ovt && t.source .ovt
    loww := t.latches.loww && t.source .loww
    feed := false
    sensor := t.latches.sensor && t.source .sensor }

/-- The lift of the boiler-class forcing (R159, step 4). -/
def Part.liftForcing (s : Part) : Part :=
  let s := if s.brownActive then s else (s.setLoad .l0 { s.load .l0 with forced := false }).allocate
  let s := if s.boiler.state = .locked then s.boilerUnlock else s
  s.steamGrantTest

/-- The record part of the reply: bytes 0 to 12 (section 10.6). -/
def TripUnit.recordBytes (t : TripUnit) : List Byte :=
  (match t.first with
   | none => List.replicate 12 0
   | some f =>
     [1, f.cause.code, f.cause.bayByte] ++ le32 f.seconds.toNat ++ [f.mode.code] ++ le16s f.tb ++ le16 f.volts)
  ++ [byteOf t.faultCount]

/-- FAULT_CLEAR (R158, R159). -/
def Part.faultClear (s : Part) (args : List Byte) : Answer :=
  if args ≠ [] then s.refuse .args
  else
    let record := s.trips.recordBytes
    let stays := s.trips.remaining
    let clears := stays ≠ s.trips.latches
    let s := s.setTrips { s.trips with first := none, faultCount := 0, latches := stays }
    let s := if clears && !stays.any then s.liftForcing else s
    let s := if clears then s.raisePlantNonIdle else s
    (s, .ok, record ++ [s.trips.latches.mask])

/-! ## Notice requests (section 8.3) -/

/-- The mask byte of a notice set. -/
def noteMask (m : BitVec 5) : Byte := m.zeroExtend 8

/-- NOTE_READ (R167). -/
def Part.noteRead (s : Part) (p : Port) (args : List Byte) : Answer :=
  if args ≠ [] then s.refuse .args
  else (s, .ok, [noteMask (s.notice p).flags, noteMask (s.notice p).enables])

/-- NOTE_ACK (R168). -/
def Part.noteAck (s : Part) (p : Port) (args : List Byte) : Answer :=
  match args with
  | [x] =>
    if x &&& 0xE0 ≠ 0 then s.refuse .args
    else
      let n := s.notice p
      let after := n.flags &&& ~~~(x.truncate 5)
      (s.setNotice p { n with flags := after }, .ok, [noteMask n.flags, noteMask after, noteMask n.enables])
  | _ => s.refuse .args

/-- NOTE_ENABLE (R169). -/
def Part.noteEnable (s : Part) (p : Port) (args : List Byte) : Answer :=
  match args with
  | [x] =>
    if x &&& 0xE0 ≠ 0 then s.refuse .args
    else
      let n := s.notice p
      (s.setNotice p { n with enables := x.truncate 5 }, .ok, [noteMask n.flags, noteMask (x.truncate 5)])
  | _ => s.refuse .args

end Sys2Proof.Machine
end

