-- ==== Sys2Proof/Machine/Reports.lean ====
section
/-! DEFINITION. Sys2Proof/Machine/Reports.lean: the reads BAY_QUERY, PLANT_QUERY and LEDGER_READ (section 9.7), byte by byte
as section 10.5 lays them out. None of them changes the part. -/

namespace Sys2Proof.Machine

/-! ## BAY_QUERY (R193) -/

/-- The place of a bay in a queue, 1 at the head; 0 for a bay that does not wait (section 10.3). -/
def placeIn (q : List Bay) (b : Bay) : Nat :=
  match q.findIdx? (· = b) with
  | some i => i + 1
  | none => 0

/-- The steam position of a bay (section 10.3). -/
def Steam.position (a : Steam) (b : Bay) : Byte :=
  match a.holder with
  | .auto h => if h = b then 0x10 else byteOf (placeIn a.queue b)
  | .manual h => if h = b then 0x11 else byteOf (placeIn a.queue b)
  | .none => byteOf (placeIn a.queue b)

/-- The manifold state that goes with the position of its holder, automatic or manual; 0 for a bay that does not hold the
manifold (R128, R194; DEDUCED, log entry 28). -/
def Steam.holderState (a : Steam) (b : Bay) : Byte := if a.holder.bay = some b then a.manifold.code else 0

/-- The air position of a bay (section 10.3). -/
def Air.position (a : Air) (b : Bay) : Byte := if a.isHolder b then 0x10 else byteOf (placeIn a.queue b)

/-- The hold timer, in whole seconds rounded down, and the hold length of a bay; 0 for a bay that holds no air (R145). -/
def Air.holdBytes (a : Air) (b : Bay) : List Byte :=
  match a.holders.find? fun h => h.bay = b with
  | some h => le16 (h.heldMs / 1000) ++ le16 h.lengthS
  | none => le16 0 ++ le16 0

/-- The target placed with an AIR demand; 0 with none. -/
def Demand.target : Demand → Nat
  | .air t => t
  | _ => 0

/-- The working fields that a REFRESH record holds (R21): the sub-step, burst_mg and the airing count, which keeps its
value in BURST until the next entry to AIRING (log entry 25). -/
def Record.subCode (r : Record) (w : Work) : Byte := if r.body.isRefresh then w.sub.code else 0
def Record.burstMg (r : Record) (w : Work) : Nat := if r.body.isRefresh then w.burstMg else 0
def Record.airingCount (r : Record) (w : Work) : Nat := if r.body.isRefresh then w.airing else 0

/-- Bytes 11 to 34 of the report: the current record, or zeros where there is none. -/
def recordReport : Option (Record × Work) → List Byte
  | none => List.replicate 24 0
  | some (r, w) =>
    [r.tag, r.body.kindCode, r.subCode w]
      ++ le16 r.activeS ++ le16 r.servedS ++ le16 r.pausedS ++ le16 r.starvedS
      ++ le32 r.body.steamMg ++ [byteOf r.body.burstsDone] ++ le16 r.body.heatWh
      ++ le32 (r.burstMg w) ++ le16 (r.airingCount w)

/-- The report of one bay (section 10.5). -/
def Part.bayReport (s : Part) (b : Bay) : List Byte :=
  let r := s.runner b
  let e := s.load (.bay b)
  [r.state.code, r.causes.mask,
   maskByte [r.shut, s.air.damperOpen b, (s.loop b).fault, e.clipped, (s.current b).isSome],
   r.demand.code]
    ++ le16s r.demand.target ++ le16 r.unserved
    ++ [byteOf (countDone (s.list b)), byteOf (countPending (s.list b)), byteOf s.freeSlots]
    ++ recordReport (s.current b)
    ++ [s.steam.position b, s.steam.holderState b, s.air.position b]
    ++ s.air.holdBytes b ++ le16s (s.loop b).tAir ++ le16 e.grant ++ le16 e.duty

/-- BAY_QUERY (R193): no argument on a bay port, a bay number on the service port. -/
def Part.bayQuery (s : Part) (p : Port) (args : List Byte) : Answer :=
  match p, args with
  | .bp b, [] => (s, .ok, s.bayReport b)
  | .sp, [x] =>
    match Bay.ofByte x with
    | some b => (s, .ok, s.bayReport b)
    | none => s.refuse .args
  | _, _ => s.refuse .args

/-! ## PLANT_QUERY (R192) -/

/-- The mask of the ports whose link is UP. -/
def Part.linkMask (s : Part) : Byte := maskByte (Port.list.map fun p => (s.port p).linkUp)

/-- The compressor mask: RUNNING, and for a STOPPED compressor an off timer that has expired (R145). -/
def Compressor.mask (c : Compressor) : Byte := maskByte [c.running, !c.running && c.offTimer = .expired]

def Part.plantReport (s : Part) : List Byte :=
  let bays (bs : List Bay) : List Byte := bayPlaces (fun b => byteOf (Bay.number b)) bs
  [s.mode.code, s.boiler.state.code, flagByte s.boiler.refill]
    ++ le16s s.boiler.tb ++ le16 s.table.vAvg
    ++ [s.steam.manifold.code, s.steam.holder.code] ++ bays s.steam.queue
    ++ [s.comp.mask] ++ bays (s.air.holders.map AirHolder.bay) ++ bays s.air.queue
    ++ [s.trips.activeMask, s.trips.latches.mask, s.linkMask]

/-- PLANT_QUERY (R192). -/
def Part.plantQuery (s : Part) (args : List Byte) : Answer :=
  if args ≠ [] then s.refuse .args else (s, .ok, s.plantReport)

/-! ## LEDGER_READ (R191) -/

/-- The load entry of section 10.5; only a bay heater shows the clipped flag. -/
def LoadEntry.bytes (e : LoadEntry) (isBay : Bool) : List Byte :=
  le16 e.rating ++ le16 e.full ++ [byteOf e.weight] ++ le16 e.request ++ le16 e.grant ++ le16 e.duty ++ le16 e.actual
    ++ [maskByte [e.forced, isBay && e.clipped, e.manual.isSome]] ++ le16 (e.manual.getD 0)

/-- LEDGER_READ (R191): parts 0 to 2. -/
def Part.ledgerRead (s : Part) (args : List Byte) : Answer :=
  let t := s.table
  let pair (x y : Bay) : Answer :=
    (s, .ok, t.number :: ((s.load (.bay x)).bytes true ++ (s.load (.bay y)).bytes true))
  match args with
  | [x] =>
    if x = 0 then
      (s, .ok,
        [t.number, flagByte s.comp.running] ++ le16 t.pComp ++ le16 s.live.budget ++ le16 s.live.standing
          ++ le16 t.headroom ++ le16 t.unallocated ++ [byteOf t.rounds]
          ++ le16 t.vAvg ++ le16 t.vClamped ++ le16 t.vNom ++ (s.load .l0).bytes false)
    else if x = 1 then pair .b1 .b2
    else if x = 2 then pair .b3 .b4
    else s.refuse .args
  | _ => s.refuse .args

end Sys2Proof.Machine
end

