-- ==== Sys2Proof/Machine/Requests.lean ====
section
/-! DEFINITION. Sys2Proof/Machine/Requests.lean: the taking of an entry: the port checks of R9, the owner that carries a
request out or refuses it, and the reply that is formed and sent (R6, R8). -/

namespace Sys2Proof.Machine

/-! ## Replies (R6) -/

/-- The transmitter becomes SENDING with this reply (R8). -/
def Part.send (s : Part) (p : Port) (r : Reply) : Part :=
  s.setPort p { s.port p with tx := some r, txLeft := r.tenths }

/-! ## Requests as messages (section 1.2) -/

/-- The check byte of a request: it makes the sum of code, length, arguments and check byte 0 modulo 256 (R3). -/
def requestCheck (code : Byte) (args : List Byte) : Byte := -(code + byteOf args.length + args.foldl (· + ·) 0)

/-- The bytes that follow a request's header: length, arguments and check byte. -/
def requestTail (code : Byte) (args : List Byte) : List Byte :=
  byteOf args.length :: (args ++ [requestCheck code args])

/-- The port, the request and the arguments that a request command takes; `none` for the other commands. -/
def requestOf : Instr → Option (Port × Request × List Byte)
  | .append p args => some (p, .append, args)
  | .withdraw p args => some (p, .withdraw, args)
  | .collect p args => some (p, .collect, args)
  | .runStart p args => some (p, .runStart, args)
  | .runPause p args => some (p, .runPause, args)
  | .runResume p args => some (p, .runResume, args)
  | .runFinish p args => some (p, .runFinish, args)
  | .runAbort p args => some (p, .runAbort, args)
  | .bayAbort p args => some (p, .bayAbort, args)
  | .closureReport p args => some (p, .closureReport, args)
  | .bayQuery p args => some (p, .bayQuery, args)
  | .plantQuery p args => some (p, .plantQuery, args)
  | .noteRead p args => some (p, .noteRead, args)
  | .noteAck p args => some (p, .noteAck, args)
  | .noteEnable p args => some (p, .noteEnable, args)
  | .plantStart p args => some (p, .plantStart, args)
  | .plantHalt p args => some (p, .plantHalt, args)
  | .plantRestart p args => some (p, .plantRestart, args)
  | .manualEnter p args => some (p, .manualEnter, args)
  | .manualExit p args => some (p, .manualExit, args)
  | .manDriveHeat p l duty => some (p, .manDrive, Drive.args (.heat l) duty)
  | .manDriveFeed p count => some (p, .manDrive, Drive.args .feed count)
  | .manDriveValveOpen p b => some (p, .manDrive, Drive.args (.valve b) 1)
  | .manDriveValveClose p b => some (p, .manDrive, Drive.args (.valve b) 0)
  | .manDriveCompOn p => some (p, .manDrive, Drive.args .comp 1)
  | .manDriveCompOff p => some (p, .manDrive, Drive.args .comp 0)
  | .manDriveDampOpen p b => some (p, .manDrive, Drive.args (.damp b) 1)
  | .manDriveDampClose p b => some (p, .manDrive, Drive.args (.damp b) 0)
  | .cfgLive p args => some (p, .cfgLive, args)
  | .cfgStage p args => some (p, .cfgStage, args)
  | .cfgRead p args => some (p, .cfgRead, args)
  | .cntRead p args => some (p, .cntRead, args)
  | .cntReadClear p args => some (p, .cntReadClear, args)
  | .ledgerRead p args => some (p, .ledgerRead, args)
  | .faultClear p args => some (p, .faultClear, args)
  | .powerOnReset _ | .headerReceived _ _ | .lengthAbove24 _ _ | .messageComplete _ _ | .characterFramingError _
  | .gapTimeout _ | .breakDetected _ | .replyEnd _ | .frameReply _ _ | .runnerSecond _ | .allocatorSecond _
  | .heaterPeriodStart _ | .heaterOnTimeEnd _ | .boilerSecond _ | .feedPulseEnd | .probeReadingChange _ _
  | .meteringSecond | .sliceExpiry | .purgeEnd | .holdExpiry _ | .compressorSecond | .offTimerExpiry | .onTimerExpiry
  | .airLoopSecond _ _ | .tripInputChange _ _ | .tripUnitSecond | .marker0Character _ _ | .rxReturnsHigh _ => none

/-! ## The port checks and the owners (R9, section 1.5) -/

/-- The refusal of the port checks for an assigned request, if any (R9). -/
def Request.refusal (r : Request) (p : Port) : Option Result :=
  match p, r.access with
  | .sp, .bayOnly => some .unknown
  | .bp _, .serviceOnly => some .denied
  | _, _ => none

/-- The owner of each request that passes the port checks. On a bay port the bay is that of the port. -/
def Part.own (s : Part) (p : Port) (r : Request) (args : List Byte) : Answer :=
  match p, r with
  | .bp b, .append => s.append b args
  | .bp b, .withdraw => s.withdrawRecord b args
  | .bp b, .collect => s.collect b args
  | .bp b, .runStart => s.runStart b args
  | .bp b, .runPause => s.runPause b args
  | .bp b, .runResume => s.runResume b args
  | .bp b, .runFinish => s.runFinish b args
  | .bp b, .runAbort => s.runAbort b args
  | .bp b, .closureReport => s.closureReport b args
  | _, .bayAbort => s.bayAbort args
  | _, .bayQuery => s.bayQuery p args
  | _, .plantQuery => s.plantQuery args
  | _, .noteRead => s.noteRead p args
  | _, .noteAck => s.noteAck p args
  | _, .noteEnable => s.noteEnable p args
  | _, .plantStart => s.plantStart args
  | _, .plantHalt => s.plantHalt args
  | _, .plantRestart => s.plantRestart args
  | _, .manualEnter => s.manualEnter args
  | _, .manDrive => s.manDrive args
  | _, .manualExit => s.manualExit args
  | _, .cfgLive => s.cfgLive args
  | _, .cfgStage => s.cfgStage args
  | _, .cfgRead => s.cfgRead args
  | _, .cntRead => s.readCounters args false
  | _, .cntReadClear => s.readCounters args true
  | _, .ledgerRead => s.ledgerRead args
  | _, .faultClear => s.faultClear args
  | .sp, .append | .sp, .withdraw | .sp, .collect | .sp, .runStart | .sp, .runPause | .sp, .runResume | .sp, .runFinish
  | .sp, .runAbort | .sp, .closureReport => s.refuse .unknown

/-- A request taken on a port: its port checks, then its owner (R9). -/
def Part.handle (s : Part) (p : Port) (r : Request) (args : List Byte) : Answer :=
  match r.refusal p with
  | some e => s.refuse e
  | none => s.own p r args

/-- The reply to a request is formed from its answer and sent (R8). -/
def Answer.reply (a : Answer) (p : Port) (code : Byte) : Part := a.1.send p ⟨code, a.2.1, a.2.2⟩

/-- A request is taken, takes effect and is answered (R8). -/
def Part.serve (s : Part) (p : Port) (r : Request) (args : List Byte) : Part := (s.handle p r args).reply p r.code

/-- A FRAME entry is taken and answered: result FRAME, length 0 (R8). -/
def Part.serveFrame (s : Part) (p : Port) (code : Byte) : Part := s.send p ⟨code, .frame, []⟩

/-- An entry is taken (R8); a code assigned to no request is answered UNKNOWN (R9). -/
def Part.take (s : Part) (p : Port) : Entry → Part
  | .frame code => s.serveFrame p code
  | .request code args =>
    match Request.ofCode code with
    | some r => s.serve p r args
    | none => s.send p ⟨code, .unknown, []⟩

/-- The port takes the head of its buffer when its transmitter is IDLE (R8). -/
def Part.takeHead (s : Part) (p : Port) : Part :=
  match (s.port p).tx, (s.port p).buffer with
  | none, e :: rest => (s.setPort p { s.port p with buffer := rest }).take p e
  | _, _ => s

/-- An entry joins the buffer, and is taken at once where the transmitter is IDLE; a full buffer drops it as an
overrun (R7, R8). -/
def Part.enter (s : Part) (p : Port) (e : Entry) : Part :=
  let q := (s.port p).buffer
  if Config.bufferMax ≤ q.length then s.countOverrun p
  else (s.setPort p { s.port p with buffer := q ++ [e] }).takeHead p

/-- An entry that a command brings to the port (R7, R8): it is taken where the transmitter is IDLE, and where a reply is
being sent it joins the buffer behind the entries that wait, or is dropped as an overrun. -/
def Part.offer (s : Part) (p : Port) (e : Entry) : Part := if (s.port p).tx.isSome then s.enter p e else s.take p e

/-- A request command: a checked request entry at its port (R8, R9; log entry 1). -/
def Part.request (s : Part) (p : Port) (r : Request) (args : List Byte) : Part := s.offer p (.request r.code args)

end Sys2Proof.Machine
end

