-- ==== Sys2Proof/Machine/PortCommands.lean ====
section
/-! DEFINITION. Sys2Proof/Machine/PortCommands.lean: the commands of the serial ports (chapter 1) and power-on reset:
characters, line faults, gaps, breaks and the ends of replies. While a break lasts the receiver takes no character
(log entry 7). -/

namespace Sys2Proof.Machine

/-- The receive assembly of a port becomes `x`. -/
def Part.setRx (s : Part) (p : Port) (x : Assembly) : Part := s.setPort p { s.port p with rx := x }

/-- The message in assembly is discarded for a fault: the assembly is IDLE, the frame error is counted and a FRAME entry
is produced (R2, R4, R5). -/
def Part.discard (s : Part) (p : Port) (code : Byte) : Part :=
  ((s.setRx p .idle).countFrameError p).enter p (.frame code)

/-- A good character with marker 0 (R4): length, argument or check byte of the message in assembly, or a stray. -/
def Part.character (s : Part) (p : Port) (x : Byte) : Part :=
  if (s.port p).inBreak then s
  else
    match (s.port p).rx with
    | .idle => s
    | .assembling code none args sum =>
      if Config.argMax < x.toNat then s.discard p code
      else s.setRx p (.assembling code (some x.toNat) args (sum + x))
    | .assembling code (some n) args sum =>
      if args.length < n then s.setRx p (.assembling code (some n) (args ++ [x]) (sum + x))
      else if sum + x = 0 then (s.setRx p .idle).enter p (.request code args)
      else s.discard p code

/-- A header makes a DOWN link UP; a bay port raises LINK (R13). -/
def Part.headerLink (s : Part) (p : Port) : Part :=
  if (s.port p).linkUp then s
  else
    let s := s.setPort p { s.port p with linkUp := true }
    match p with
    | .sp => s
    | .bp _ => s.raiseSp .link

/-- A good character with marker 1 (R4, R13). -/
def Part.header (s : Part) (p : Port) (code : Byte) : Part :=
  if (s.port p).inBreak then s
  else
    let s := s.headerLink p
    let s := if (s.port p).rx = .idle then s else s.countFrameError p
    s.setRx p (.assembling code none [] code)

/-- A character framing error (R2, R14). -/
def Part.framingError (s : Part) (p : Port) : Part :=
  if (s.port p).inBreak then s
  else
    match (s.port p).rx with
    | .idle => s.countFrameError p
    | .assembling code _ _ _ => s.discard p code

/-- The gap of a message in assembly exceeds 5 ms (R5). -/
def Part.gap (s : Part) (p : Port) : Part :=
  match (s.port p).rx with
  | .idle => s
  | .assembling code _ _ _ => s.discard p code

/-- A break (R12): assembly and buffer are emptied, and a bay port whose link goes DOWN reports LINK LOSS. -/
def Part.lineBreak (s : Part) (p : Port) : Part :=
  let x := s.port p
  let s := s.setPort p { x with rx := .idle, buffer := [], inBreak := true, linkUp := false }
  match p with
  | .sp => s
  | .bp b => if x.linkUp then s.linkLoss b else s

/-- The reply has been sent: the transmitter is IDLE and takes the next entry (R8). -/
def Part.replyEnds (s : Part) (p : Port) : Part :=
  match (s.port p).tx with
  | none => s
  | some _ => (s.setPort p { s.port p with tx := none, txLeft := 0 }).takeHead p

/-! ## The commands -/

/-- RESETN rises (R195): with a valid supply the reset ends, every block starts from its power-on values and RATESEL is
sampled (R1); without one the reset goes on. -/
def Part.resetnRises (s : Part) (ratesel : Bool) : Part :=
  let pins := { s.pins with resetn := true, ratesel := ratesel }
  if pins.supply then .afterReset pins s.orders else s.setPins pins

/-- POWER_ON_RESET (R195): a fall of RESETN or a power-up begins it: every operation ends and the outputs are held (log entry
6). A rise of RESETN with a valid supply ends it. A supply that becomes valid with RESETN high does not end it, because R195
names the rise alone: DESIGN CHOICE, unsafe (log entry 32). -/
def execPowerOnReset (edge : ResetEdge) (s : State) : Host.Outcome State Fault Refusal :=
  s.run fun part =>
    match edge with
    | .falls => part.heldInReset { part.pins with resetn := false }
    | .rises ratesel => part.resetnRises ratesel
    | .powersUp => part.heldInReset { part.pins with supply := false }
    | .supplyValid => part.setPins { part.pins with supply := true }

/-- HEADER_RECEIVED (R4). -/
def execHeaderReceived (p : Port) (code : Byte) (s : State) : Host.Outcome State Fault Refusal :=
  s.run fun part => part.header p code

/-- LENGTH_ABOVE_24 (R4): the character takes its place in the assembly as any marker-0 character does. -/
def execLengthAbove24 (p : Port) (len : Byte) (s : State) : Host.Outcome State Fault Refusal :=
  s.run fun part => part.character p len

/-- MESSAGE_COMPLETE (R4): the character takes its place in the assembly as any marker-0 character does. -/
def execMessageComplete (p : Port) (check : Byte) (s : State) : Host.Outcome State Fault Refusal :=
  s.run fun part => part.character p check

/-- MARKER_0_CHARACTER (R4). -/
def execMarker0Character (p : Port) (byte : Byte) (s : State) : Host.Outcome State Fault Refusal :=
  s.run fun part => part.character p byte

/-- CHARACTER_FRAMING_ERROR (R2). -/
def execCharacterFramingError (p : Port) (s : State) : Host.Outcome State Fault Refusal :=
  s.run fun part => part.framingError p

/-- GAP_TIMEOUT (R5). -/
def execGapTimeout (p : Port) (s : State) : Host.Outcome State Fault Refusal := s.run fun part => part.gap p

/-- BREAK (R12). -/
def execBreakDetected (p : Port) (s : State) : Host.Outcome State Fault Refusal := s.run fun part => part.lineBreak p

/-- RX returns high (R12): the receiver resumes, but during a power-on reset it stays deaf (R15). -/
def Part.rxResumes (s : Part) (p : Port) : Part := s.setPort p { s.port p with inBreak := s.held }

/-- RX_RETURNS_HIGH_AFTER_BREAK (R12). -/
def execRxReturnsHigh (p : Port) (s : State) : Host.Outcome State Fault Refusal := s.run fun part => part.rxResumes p

/-- REPLY_END (R8). -/
def execReplyEnd (p : Port) (s : State) : Host.Outcome State Fault Refusal := s.run fun part => part.replyEnds p

/-- FRAME_REPLY (R8): the FRAME entry is taken where the transmitter is IDLE, and waits its turn where it is SENDING. -/
def execFrameReply (p : Port) (code : Byte) (s : State) : Host.Outcome State Fault Refusal :=
  s.run fun part => part.offer p (.frame code)

end Sys2Proof.Machine
end

