-- ==== Sys2Proof/Machine/RequestCommands.lean ====
section
/-! DEFINITION. Sys2Proof/Machine/RequestCommands.lean: the commands that are requests. Each brings its
entry to the port it names (R8): taken where the transmitter is IDLE, with the port checks of R9, the owner's rule and the
reply formed and sent, and waiting its turn where a reply is being sent (log entry 1). -/

namespace Sys2Proof.Machine

/-- APPEND (R29 to R31). -/
def execAppend (p : Port) (args : List Byte) (s : State) : Host.Outcome State Fault Refusal :=
  s.run fun part => part.request p .append args

/-- WITHDRAW (R32). -/
def execWithdraw (p : Port) (args : List Byte) (s : State) : Host.Outcome State Fault Refusal :=
  s.run fun part => part.request p .withdraw args

/-- COLLECT (R33). -/
def execCollect (p : Port) (args : List Byte) (s : State) : Host.Outcome State Fault Refusal :=
  s.run fun part => part.request p .collect args

/-- RUN_START (R48). -/
def execRunStart (p : Port) (args : List Byte) (s : State) : Host.Outcome State Fault Refusal :=
  s.run fun part => part.request p .runStart args

/-- RUN_PAUSE (R49). -/
def execRunPause (p : Port) (args : List Byte) (s : State) : Host.Outcome State Fault Refusal :=
  s.run fun part => part.request p .runPause args

/-- RUN_RESUME (R50). -/
def execRunResume (p : Port) (args : List Byte) (s : State) : Host.Outcome State Fault Refusal :=
  s.run fun part => part.request p .runResume args

/-- RUN_FINISH (R51). -/
def execRunFinish (p : Port) (args : List Byte) (s : State) : Host.Outcome State Fault Refusal :=
  s.run fun part => part.request p .runFinish args

/-- RUN_ABORT (R52). -/
def execRunAbort (p : Port) (args : List Byte) (s : State) : Host.Outcome State Fault Refusal :=
  s.run fun part => part.request p .runAbort args

/-- BAY_ABORT (R53). -/
def execBayAbort (p : Port) (args : List Byte) (s : State) : Host.Outcome State Fault Refusal :=
  s.run fun part => part.request p .bayAbort args

/-- CLOSURE_REPORT (R46). -/
def execClosureReport (p : Port) (args : List Byte) (s : State) : Host.Outcome State Fault Refusal :=
  s.run fun part => part.request p .closureReport args

/-- BAY_QUERY (R193). -/
def execBayQuery (p : Port) (args : List Byte) (s : State) : Host.Outcome State Fault Refusal :=
  s.run fun part => part.request p .bayQuery args

/-- PLANT_QUERY (R192). -/
def execPlantQuery (p : Port) (args : List Byte) (s : State) : Host.Outcome State Fault Refusal :=
  s.run fun part => part.request p .plantQuery args

/-- NOTE_READ (R167). -/
def execNoteRead (p : Port) (args : List Byte) (s : State) : Host.Outcome State Fault Refusal :=
  s.run fun part => part.request p .noteRead args

/-- NOTE_ACK (R168). -/
def execNoteAck (p : Port) (args : List Byte) (s : State) : Host.Outcome State Fault Refusal :=
  s.run fun part => part.request p .noteAck args

/-- NOTE_ENABLE (R169). -/
def execNoteEnable (p : Port) (args : List Byte) (s : State) : Host.Outcome State Fault Refusal :=
  s.run fun part => part.request p .noteEnable args

/-- PLANT_START (R174). -/
def execPlantStart (p : Port) (args : List Byte) (s : State) : Host.Outcome State Fault Refusal :=
  s.run fun part => part.request p .plantStart args

/-- PLANT_HALT (R176). -/
def execPlantHalt (p : Port) (args : List Byte) (s : State) : Host.Outcome State Fault Refusal :=
  s.run fun part => part.request p .plantHalt args

/-- PLANT_RESTART (R177). -/
def execPlantRestart (p : Port) (args : List Byte) (s : State) : Host.Outcome State Fault Refusal :=
  s.run fun part => part.request p .plantRestart args

/-- MANUAL_ENTER (R179). -/
def execManualEnter (p : Port) (args : List Byte) (s : State) : Host.Outcome State Fault Refusal :=
  s.run fun part => part.request p .manualEnter args

/-- MANUAL_EXIT (R183). -/
def execManualExit (p : Port) (args : List Byte) (s : State) : Host.Outcome State Fault Refusal :=
  s.run fun part => part.request p .manualExit args

/-- CFG_LIVE (R186). -/
def execCfgLive (p : Port) (args : List Byte) (s : State) : Host.Outcome State Fault Refusal :=
  s.run fun part => part.request p .cfgLive args

/-- CFG_STAGE (R187). -/
def execCfgStage (p : Port) (args : List Byte) (s : State) : Host.Outcome State Fault Refusal :=
  s.run fun part => part.request p .cfgStage args

/-- CFG_READ (R188). -/
def execCfgRead (p : Port) (args : List Byte) (s : State) : Host.Outcome State Fault Refusal :=
  s.run fun part => part.request p .cfgRead args

/-- CNT_READ (R190). -/
def execCntRead (p : Port) (args : List Byte) (s : State) : Host.Outcome State Fault Refusal :=
  s.run fun part => part.request p .cntRead args

/-- CNT_READ_CLEAR (R190). -/
def execCntReadClear (p : Port) (args : List Byte) (s : State) : Host.Outcome State Fault Refusal :=
  s.run fun part => part.request p .cntReadClear args

/-- LEDGER_READ (R191). -/
def execLedgerRead (p : Port) (args : List Byte) (s : State) : Host.Outcome State Fault Refusal :=
  s.run fun part => part.request p .ledgerRead args

/-- FAULT_CLEAR (R158, R159). -/
def execFaultClear (p : Port) (args : List Byte) (s : State) : Host.Outcome State Fault Refusal :=
  s.run fun part => part.request p .faultClear args

/-! ## MAN_DRIVE, one command for each kind of drive (R181, R182) -/

/-- MAN_DRIVE_HEAT (R92): the drive of one heater with its duty. -/
def execManDriveHeat (p : Port) (heater : Load) (duty : Half) (s : State) : Host.Outcome State Fault Refusal :=
  s.run fun part => part.request p .manDrive (Drive.args (.heat heater) duty)

/-- MAN_DRIVE_FEED (R108): the FEED drive with its count of strokes. -/
def execManDriveFeed (p : Port) (count : Half) (s : State) : Host.Outcome State Fault Refusal :=
  s.run fun part => part.request p .manDrive (Drive.args .feed count)

/-- MAN_DRIVE_VALVE_OPEN (R124): a valve drive with the value OPEN. -/
def execManDriveValveOpen (p : Port) (b : Bay) (s : State) : Host.Outcome State Fault Refusal :=
  s.run fun part => part.request p .manDrive (Drive.args (.valve b) 1)

/-- MAN_DRIVE_VALVE_CLOSE (R124): a valve drive with the value CLOSE. -/
def execManDriveValveClose (p : Port) (b : Bay) (s : State) : Host.Outcome State Fault Refusal :=
  s.run fun part => part.request p .manDrive (Drive.args (.valve b) 0)

/-- MAN_DRIVE_COMP_ON (R140): the compressor drive with the value ON. -/
def execManDriveCompOn (p : Port) (s : State) : Host.Outcome State Fault Refusal :=
  s.run fun part => part.request p .manDrive (Drive.args .comp 1)

/-- MAN_DRIVE_COMP_OFF (R140): the compressor drive with the value OFF. -/
def execManDriveCompOff (p : Port) (s : State) : Host.Outcome State Fault Refusal :=
  s.run fun part => part.request p .manDrive (Drive.args .comp 0)

/-- MAN_DRIVE_DAMP_OPEN (R135): a damper drive with the value OPEN. -/
def execManDriveDampOpen (p : Port) (b : Bay) (s : State) : Host.Outcome State Fault Refusal :=
  s.run fun part => part.request p .manDrive (Drive.args (.damp b) 1)

/-- MAN_DRIVE_DAMP_CLOSE (R135): a damper drive with the value CLOSE. -/
def execManDriveDampClose (p : Port) (b : Bay) (s : State) : Host.Outcome State Fault Refusal :=
  s.run fun part => part.request p .manDrive (Drive.args (.damp b) 0)

end Sys2Proof.Machine
end

