-- ==== Sys2Proof/Machine/PlantCommands.lean ====
section
/-! DEFINITION. Sys2Proof/Machine/PlantCommands.lean: the commands that are events of the plant's own timers and inputs:
the blocks' seconds, the heater periods, the ends of pulses, slices, purges, holds and compressor timers, and the
changes of debounced inputs. An expiry of a timer that does not run, or a change to a level that already stands,
cannot occur and changes nothing (log entry 4). -/

namespace Sys2Proof.Machine

/-! ## The boiler's second (R97) -/

/-- Step 1: T_b is formed, and the Trip Unit takes the SENSOR report (R97, R150). -/
def Part.boilerForms (s : Part) (samples : List Int) : Part :=
  let tb := (sampleMean (-40000) 200000 100 samples).getD s.boiler.tb
  let s := s.setBoiler { s.boiler with tb := tb }
  let out := tb < -200 || 1800 < tb
  let activates := out && !s.trips.sensorSource
  let s := s.setTrips { s.trips with sensorSource := out }
  if activates then s.activateBoiler .sensor else s

/-- Steam demand, as READY's idle count reads it (R101). -/
def Steam.demanded (a : Steam) : Bool := !a.queue.isEmpty || a.holder ≠ .none

/-- Step 2: the temperature tests of the state (R100) and READY's idle count (R101). At an expiry where R100's drop below
T_set − 8.0 °C and R101's count both hold, the drop goes first and the idle second is not counted: DESIGN CHOICE, unsafe
(log entry 26). -/
def Part.boilerTests (s : Part) : Part :=
  let x := s.boiler
  match x.state with
  | .heating => if (s.live.tSet : Int) - 20 ≤ x.tb then s.enterReady else s
  | .ready =>
    if x.tb < (s.live.tSet : Int) - 80 then (s.setBoilerState { x with state := .heating }).stallManifold
    else
      let idle := if s.steam.demanded then 0 else satAdd 3600 x.idle 1
      if 0 < s.live.keepDelay && s.live.keepDelay ≤ idle then
        (s.setBoilerState { x with state := .keepwarm, idle := idle }).stallManifold
      else s.setBoiler { x with idle := idle }
  | .cold | .filling | .keepwarm | .locked | .manual => s

/-- One stroke: counted by the plant, and a FEED pulse (R106, R107). -/
def Part.stroke (s : Part) (x : Boiler) : Part :=
  let c := s.counters.plant
  (s.setPlantCounters { c with strokes := c.strokes + 1 }).setBoiler { x with feed := some Config.strokeMs }

/-- Step 3: an automatic stroke, the end of a refill at the full level, the FEED report at the limit (R106), or a manual
stroke (R108). A refill whose PROBE_HI reading is WET ends here also while TANK stands, where R106 ends it and R107 has it
stay in progress: DESIGN CHOICE, unsafe (log entry 31). -/
def Part.boilerStrokes (s : Part) : Part :=
  let x := s.boiler
  let automatic (wanted : Bool) : Part :=
    if !wanted then s
    else if x.hiWet then s.setBoiler { x with refill := false, strokes := 0 }
    else if s.tankActive then s
    else if x.strokes < s.live.strokeLimit then s.stroke { x with strokes := x.strokes + 1 }
    else s.activateBoiler .feed
  match x.state with
  | .filling => automatic (!x.hiWet)
  | .heating | .ready | .keepwarm => automatic x.refill
  | .manual =>
    if 0 < x.manualStrokes && !s.tankActive then s.stroke { x with manualStrokes := x.manualStrokes - 1 } else s
  | .cold | .locked => s

/-- The boiler loop's request q0 (R109). -/
def Part.q0 (s : Part) : Nat :=
  let full := (s.load .l0).full
  let loop (setpoint : Int) : Nat :=
    if s.steam.manifold = .open then full else clampNat 0 full (s.live.kb * (setpoint - s.boiler.tb))
  match s.boiler.state with
  | .heating | .ready => loop s.live.tSet
  | .keepwarm => loop (min (s.live.tKeep : Int) ((s.live.tSet : Int) - 100))
  | .cold | .filling | .locked | .manual => 0

/-- Step 5: the boiler heater's energy of the second (R110). -/
def Part.boilerEnergy (s : Part) : Part :=
  let acc := s.boiler.carry + (s.load .l0).actual
  let c := s.counters.plant
  (s.setPlantCounters { c with heaterWh := c.heaterWh + BitVec.ofNat 32 (acc / 3600) }).setBoiler
    { s.boiler with carry := acc % 3600 }

/-- The five steps of the boiler's second (R97). Step 5 reads the duty that step 4 left (log entry 10). -/
def Part.boilerTick (s : Part) (samples : List Int) : Part :=
  let s := ((s.boilerForms samples).boilerTests).boilerStrokes
  (s.deliver .l0 s.q0).boilerEnergy

/-! ## The Allocator's second (R72, R73) -/

/-- The voltage average is formed, handed to the Trip Unit (R151), and the voltage update follows (R73). -/
def Part.allocatorTick (s : Part) (samples : List Nat) : Part :=
  let v := ((sampleMean 0 300000 1000 (samples.map Int.ofNat)).getD s.table.vAvg).toNat
  let s := (s.setTable { s.table with vAvg := v }).brownUpdate v
  (s.setTable s.table.renewFull).allocate

/-! ## The air loops' second (R141) -/

/-- Step 1: T_air is formed and tested (R143). -/
def Part.airForms (s : Part) (b : Bay) (samples : List Int) : Part :=
  let x := s.loop b
  let t := (sampleMean (-40000) 200000 100 samples).getD x.tAir
  let bad := t < -200 || 1200 < t
  let s := s.setLoop b { x with tAir := t, fault := bad }
  if bad && !x.fault then s.recordFault (.airSensor b) else s

/-- An energy credit to `heat_wh`, stopping at the limit (R20). -/
def Body.addHeat (x : Body) (wh : Nat) : Body :=
  match x with
  | .dry t d h => .dry t d (satAdd 65535 h wh)
  | .refresh g n a t l m k h => .refresh g n a t l m k (satAdd 65535 h wh)
  | x => x

/-- The record's share of the heater energy, through its heat carry (R144). -/
def Record.heated (r : Record) (w : Work) (power : Nat) : Record :=
  let acc := w.heatCarry + power
  { r with body := r.body.addHeat (acc / 3600), phase := .current { w with heatCarry := acc % 3600 } }

/-- Step 2: the heater's energy of the second, to the bay's counter and to the record it serves (R144). -/
def Part.airEnergy (s : Part) (b : Bay) : Part :=
  let power := (s.load (.bay b)).actual
  let x := s.loop b
  let acc := x.carry + power
  let c := s.bayCounters b
  let s := s.setBayCounters b { c with heaterWh := c.heaterWh + BitVec.ofNat 32 (acc / 3600) }
  let s := s.setLoop b { x with carry := acc % 3600 }
  match (s.runner b).state, s.current b with
  | .running, some (r, w) => if r.body.hasHeat then s.updateCurrent b fun r => r.heated w power else s
  | _, _ => s

/-- The loop's request (R142). -/
def Part.airRequest (s : Part) (b : Bay) : Nat :=
  let e := s.load (.bay b)
  if s.air.isHolder b && 0 < e.rating && !(s.loop b).fault then
    clampNat 0 e.full (s.live.ka * (((s.runner b).demand.target : Int) - (s.loop b).tAir))
  else 0

/-- The three steps of an air loop's second (R141). -/
def Part.airTick (s : Part) (b : Bay) (samples : List Int) : Part :=
  let s := (s.airForms b samples).airEnergy b
  s.deliver (.bay b) (s.airRequest b)

/-! ## Manifold and air timers -/

/-- The metering second (R125): an OPEN automatic holder is credited. -/
def Part.meter (s : Part) : Part :=
  match s.steam.manifold, s.steam.holder with
  | .open, .auto b => s.credit b
  | _, _ => s

/-- The slice expires (R118). -/
def Part.sliceEnds (s : Part) : Part :=
  match s.steam.manifold, s.steam.holder, s.steam.slice with
  | .open, .auto b, some _ =>
    if s.steam.queue.isEmpty then s.setSteam { s.steam with slice := some (s.live.slice * 1000) }
    else (s.setSteam { s.steam with queue := s.steam.queue ++ [b] }).releaseHolder
  | _, _, _ => s

/-- The purge timer ends (R117, R120). -/
def Part.purgeEnds (s : Part) : Part :=
  match s.steam.purge with
  | none => s
  | some _ =>
    let s := s.setSteam { s.steam with purge := none }
    match s.steam.manifold with
    | .purge => s.manifoldFree
    | .stalled => s.openFromStall
    | .free | .open => s

/-- The hold timers of these bays reach their lengths together (R132): each is handled in grant order, and the grant test
runs once after all of them. Hold timers run only while the compressor runs. -/
def Part.holdsEnd (s : Part) (bays : List Bay) : Part :=
  let ending := (s.air.holders.map AirHolder.bay).filter fun b => b ∈ bays
  if s.comp.running && !ending.isEmpty then (ending.foldl Part.expireHold s).airSettle else s

/-- The compressor's second (R136, R137). -/
def Part.compTick (s : Part) : Part :=
  if s.comp.running then
    let c := s.counters.plant
    s.setPlantCounters { c with runSeconds := c.runSeconds + 1 }
  else s.startTest

/-- The off timer expires, and the start test follows (R137). -/
def Part.offTimerEnds (s : Part) : Part :=
  match s.comp.offTimer with
  | .running _ => (s.setComp { s.comp with offTimer := .expired }).startTest
  | .stopped | .expired => s

/-- The on timer expires, and the ordinary stop test follows (R138). -/
def Part.onTimerEnds (s : Part) : Part :=
  match s.comp.onTimer with
  | .running _ => (s.setComp { s.comp with onTimer := .expired }).ordinaryStopTest
  | .stopped | .expired => s

/-! ## Heater outputs (R87) -/

def Part.setHeat (s : Part) (l : Load) (h : HeatOut) : Part :=
  s.setTable { s.table with heat := s.table.heat.set l h }

/-- A period starts: the duty in force alone sets the on-time. -/
def Part.periodStarts (s : Part) (l : Load) : Part := s.setHeat l ⟨0, 2 * (s.load l).duty⟩

/-- The on-time of the period in progress ends; a full-period on-time has no such end. -/
def Part.onTimeEnds (s : Part) (l : Load) : Part :=
  let h := s.table.heat.get l
  if h.onTime < Config.periodMs then s.setHeat l { h with pos := max h.pos h.onTime } else s

/-! ## Probes (R99, R104, R105) -/

/-- A probe's debounced reading changes. PROBE_HI's change to WET ends a fill or a refill also while TANK stands, where R99 and
R105 end it and R107 has it go on: DESIGN CHOICE, unsafe (log entry 31). -/
def Part.probeChanges (s : Part) (probe : Probe) (wet : Bool) : Part :=
  let x := s.boiler
  match probe with
  | .hi =>
    if x.hiWet = wet then s
    else
      let s := s.setBoiler { x with hiWet := wet }
      if !wet then s
      else
        match x.state with
        | .filling => s.setBoilerState { s.boiler with state := .heating, strokes := 0 }
        | .heating | .ready | .keepwarm =>
          if x.refill then s.setBoiler { s.boiler with refill := false, strokes := 0 } else s
        | .cold | .locked | .manual => s
  | .lo =>
    if x.loWet = wet then s
    else
      let s := s.setBoiler { x with loWet := wet }
      if wet then s
      else
        match x.state with
        | .heating | .ready | .keepwarm =>
          if x.refill then s else s.setBoiler { s.boiler with refill := true, strokes := 0 }
        | .cold | .filling | .locked | .manual => s

/-! ## The inputs and timers that a command reports on -/

/-- The analogue level last sampled. -/
def lastSample {α : Type} (samples : List α) (old : α) : α := samples.getLast?.getD old

/-- The one-second timer of the bay runners starts anew. -/
def Part.runnerClock (s : Part) (b : Bay) : Part :=
  s.setClocks { s.clocks with runner := s.clocks.runner.set b 0 }

/-- The Allocator's timer starts anew, its samples taken. -/
def Part.allocClock (s : Part) (samples : List Nat) : Part :=
  (s.setClocks { s.clocks with alloc := 0, vSamples := [] }).setPins
    { s.pins with vsense := lastSample samples s.pins.vsense }

/-- The boiler's timer starts anew, its samples taken. -/
def Part.boilerClock (s : Part) (samples : List Int) : Part :=
  (s.setClocks { s.clocks with boiler := 0, boilSamples := [] }).setPins
    { s.pins with tBoil := lastSample samples s.pins.tBoil }

/-- An air loop's timer starts anew, its samples taken. -/
def Part.loopClock (s : Part) (b : Bay) (samples : List Int) : Part :=
  (s.setClocks { s.clocks with
      loops := s.clocks.loops.set b 0, airSamples := s.clocks.airSamples.set b [] }).setPins
    { s.pins with tAir := s.pins.tAir.set b (lastSample samples (s.pins.tAir.get b)) }

/-- A probe's level with its run of differing samples set to 0. -/
def Part.probePin (s : Part) (probe : Probe) (wet : Bool) : Part :=
  match probe with
  | .lo => (s.setClocks { s.clocks with loRun := 0 }).setPins { s.pins with probeLo := s.pins.probeLo.reporting Wire.wet wet }
  | .hi => (s.setClocks { s.clocks with hiRun := 0 }).setPins { s.pins with probeHi := s.pins.probeHi.reporting Wire.wet wet }

/-- A trip input's level. -/
def Part.tripPin (s : Part) (i : TripInput) (active : Bool) : Part :=
  s.setPins { s.pins with trips := s.pins.trips.set i ((s.pins.trips.get i).reporting Wire.active active) }

/-! ## The commands -/

/-- RUNNER_SECOND (R55 to R63). -/
def execRunnerSecond (b : Bay) (s : State) : Host.Outcome State Fault Refusal :=
  s.run fun part => (part.runnerClock b).runnerTick b

/-- ALLOCATOR_SECOND (R72, R73, R151). -/
def execAllocatorSecond (samples : List Nat) (s : State) : Host.Outcome State Fault Refusal :=
  s.run fun part => (part.allocClock samples).allocatorTick samples

/-- HEATER_PERIOD_START (R87). -/
def execHeaterPeriodStart (l : Load) (s : State) : Host.Outcome State Fault Refusal :=
  s.run fun part => part.periodStarts l

/-- HEATER_ON_TIME_END (R87). -/
def execHeaterOnTimeEnd (l : Load) (s : State) : Host.Outcome State Fault Refusal :=
  s.run fun part => part.onTimeEnds l

/-- BOILER_SECOND (R97). -/
def execBoilerSecond (samples : List Int) (s : State) : Host.Outcome State Fault Refusal :=
  s.run fun part => (part.boilerClock samples).boilerTick samples

/-- FEED_PULSE_END (R107). -/
def execFeedPulseEnd (s : State) : Host.Outcome State Fault Refusal :=
  s.run fun part => part.setBoiler { part.boiler with feed := none }

/-- PROBE_READING_CHANGE (R104). -/
def execProbeReadingChange (probe : Probe) (wet : Bool) (s : State) : Host.Outcome State Fault Refusal :=
  s.run fun part => (part.probePin probe wet).probeChanges probe wet

/-- METERING_SECOND (R125). -/
def execMeteringSecond (s : State) : Host.Outcome State Fault Refusal :=
  s.run fun part => (part.setClocks { part.clocks with metering := 0 }).meter

/-- SLICE_EXPIRY (R118). -/
def execSliceExpiry (s : State) : Host.Outcome State Fault Refusal := s.run Part.sliceEnds

/-- PURGE_END (R117, R120). -/
def execPurgeEnd (s : State) : Host.Outcome State Fault Refusal := s.run Part.purgeEnds

/-- HOLD_EXPIRY (R132). -/
def execHoldExpiry (bays : List Bay) (s : State) : Host.Outcome State Fault Refusal :=
  s.run fun part => part.holdsEnd bays

/-- COMPRESSOR_SECOND (R136, R137). -/
def execCompressorSecond (s : State) : Host.Outcome State Fault Refusal :=
  s.run fun part => (part.setClocks { part.clocks with comp := 0 }).compTick

/-- OFF_TIMER_EXPIRY (R137). -/
def execOffTimerExpiry (s : State) : Host.Outcome State Fault Refusal := s.run Part.offTimerEnds

/-- ON_TIMER_EXPIRY (R138). -/
def execOnTimerExpiry (s : State) : Host.Outcome State Fault Refusal := s.run Part.onTimerEnds

/-- AIR_LOOP_SECOND (R141). -/
def execAirLoopSecond (b : Bay) (samples : List Int) (s : State) : Host.Outcome State Fault Refusal :=
  s.run fun part => (part.loopClock b samples).airTick b samples

/-- TRIP_INPUT_CHANGE (R147, R148). -/
def execTripInputChange (i : TripInput) (active : Bool) (s : State) : Host.Outcome State Fault Refusal :=
  s.run fun part => (part.tripPin i active).tripInput i active

/-- TRIP_UNIT_SECOND (R146). -/
def execTripUnitSecond (s : State) : Host.Outcome State Fault Refusal :=
  s.run fun part =>
    (part.setClocks { part.clocks with trip := 0 }).setTrips { part.trips with seconds := part.trips.seconds + 1 }

end Sys2Proof.Machine
end

