-- ==== Sys2Proof/Machine/Clock.lean ====
section
/-! DEFINITION. Sys2Proof/Machine/Clock.lean: the passing of one millisecond while no command waits (DESIGN CHOICE, log
entry 2): every running timer and free-running second advances, the inputs are sampled at their rates, and the
expiries that are then due are the commands that `step` takes next. -/

namespace Sys2Proof.Machine

/-! ## Advancing -/

/-- A timer that runs has one millisecond less to go. -/
def Timer.advance : Timer → Timer
  | .running n => .running (n - 1)
  | t => t

/-- A sample of the level joins those of the second in progress, at every multiple of `every` milliseconds. -/
def sampled {α : Type} (every at_ : Nat) (level : α) (samples : List α) : List α :=
  if at_ % every = 0 then samples ++ [level] else samples

/-- The run of samples that differ from a debounced reading (R104, R147). -/
def runAfter (level reading : Bool) (run : Nat) : Nat := if level = reading then 0 else run + 1

/-- The free-running seconds, and the samples taken in them (R72, R97, R104, R141). Each sample is taken at the multiples of
its interval in the block's own second, and the one at the expiry counts into the second just ended: DESIGN CHOICE, unsafe
(log entry 29). The probes are sampled with the boiler's thermistor: DESIGN CHOICE, unsafe (log entry 21). -/
def Clocks.advance (c : Clocks) (pins : Pins) (x : Boiler) : Clocks :=
  let boiler := c.boiler + 1
  let loop (b : Bay) : Nat := c.loops.get b + 1
  let air (b : Bay) : List Int := sampled 100 (loop b) (pins.tAir.get b) (c.airSamples.get b)
  { runner := c.runner.map (· + 1)
    alloc := c.alloc + 1
    boiler := boiler
    metering := c.metering + 1
    comp := c.comp + 1
    loops := c.loops.map (· + 1)
    trip := c.trip + 1
    vSamples := sampled 10 (c.alloc + 1) pins.vsense c.vSamples
    boilSamples := sampled 100 boiler pins.tBoil c.boilSamples
    airSamples := ⟨air .b1, air .b2, air .b3, air .b4⟩
    loRun := if boiler % 100 = 0 then runAfter pins.probeLo.wet x.loWet c.loRun else c.loRun
    hiRun := if boiler % 100 = 0 then runAfter pins.probeHi.wet x.hiWet c.hiRun else c.hiRun }

/-- The sampling of a trip input, once a millisecond (R147). -/
def Debounce.sample (d : Debounce) (level : Bool) : Debounce := { d with run := runAfter level d.active d.run }

/-- Tenths of a bit time sent in a millisecond: 19,200 or 57,600 baud (R1). -/
def tenthsPerMs (fast : Bool) : Nat := if fast then 576 else 192

def PortState.advance (x : PortState) (fast : Bool) : PortState :=
  if x.tx.isSome then { x with txLeft := x.txLeft - tenthsPerMs fast } else x

/-- The slice runs while the manifold is OPEN (R118); the purge timer runs on its own (R116). -/
def Steam.advance (a : Steam) : Steam :=
  { a with
    slice := if a.manifold = .open then a.slice.map (· - 1) else a.slice
    purge := a.purge.map (· - 1) }

/-- The hold timers run while the compressor runs (R132). -/
def Air.advance (a : Air) (running : Bool) : Air :=
  if running then { a with holders := a.holders.map fun h => { h with heldMs := h.heldMs + 1 } } else a

/-- One millisecond later. -/
def Part.advance (s : Part) : Part :=
  let i := s.trips.inputs
  let l := s.pins.trips
  let port (x : PortState) : PortState := x.advance s.fast
  { s with
    ports := ⟨port s.ports.sp, s.ports.bays.map port⟩
    table := { s.table with heat := s.table.heat.map fun h => { h with pos := h.pos + 1 } }
    boiler := { s.boiler with feed := s.boiler.feed.map (· - 1) }
    steam := s.steam.advance
    air := s.air.advance s.comp.running
    comp := { s.comp with onTimer := s.comp.onTimer.advance, offTimer := s.comp.offTimer.advance }
    trips := { s.trips with
      inputs := ⟨i.ovp.sample l.ovp.active, i.ovt.sample l.ovt.active, i.loww.sample l.loww.active,
                 i.tank.sample l.tank.active, i.cond.sample l.cond.active⟩ }
    clocks := s.clocks.advance s.pins s.boiler }

/-! ## What is due -/

/-- The command, where it is due. -/
def dueIf (c : Bool) (i : Instr) : List Instr := if c then [i] else []

/-- The end of a heater's on-time, or the start of its next period (R87). -/
def HeatOut.due (h : HeatOut) (l : Load) : List Instr :=
  if Config.periodMs ≤ h.pos then [.heaterPeriodStart l]
  else dueIf (h.pos = h.onTime && 0 < h.onTime) (.heaterOnTimeEnd l)

/-- The change of a debounced trip input whose run is complete (R147). -/
def Debounce.due (d : Debounce) (i : TripInput) : List Instr :=
  dueIf ((if d.active then Config.tripOffRun else Config.tripOnRun) ≤ d.run) (.tripInputChange i !d.active)

def TripInput.list : List TripInput := [.ovp, .ovt, .loww, .tank, .cond]

/-- The bays whose hold timers have reached their lengths, in grant order (R132). -/
def Air.endedHolds (a : Air) : List Bay :=
  (a.holders.filter fun h => h.lengthS * 1000 ≤ h.heldMs).map AirHolder.bay

/-- A free-running second has passed. -/
def secondDue (ms : Nat) : Bool := 1000 ≤ ms

/-- The commands due, in a fixed order: the ends of timers before the changes of inputs and the ends of replies, and
these before the blocks' seconds (log entry 2). -/
def Part.due (s : Part) : List Instr :=
  let c := s.clocks
  dueIf (s.steam.purge = some 0) .purgeEnd
    ++ dueIf (s.steam.manifold = .open && s.steam.slice = some 0) .sliceExpiry
    ++ dueIf (s.comp.running && s.air.endedHolds ≠ []) (.holdExpiry s.air.endedHolds)
    ++ dueIf (s.comp.offTimer = .running 0) .offTimerExpiry
    ++ dueIf (s.comp.onTimer = .running 0) .onTimerExpiry
    ++ dueIf (s.boiler.feed = some 0) .feedPulseEnd
    ++ Load.list.flatMap (fun l => (s.table.heat.get l).due l)
    ++ dueIf (Config.probeRun ≤ c.loRun) (.probeReadingChange .lo !s.boiler.loWet)
    ++ dueIf (Config.probeRun ≤ c.hiRun) (.probeReadingChange .hi !s.boiler.hiWet)
    ++ TripInput.list.flatMap (fun i => (s.trips.inputs.get i).due i)
    ++ Port.list.flatMap (fun p => dueIf ((s.port p).tx.isSome && (s.port p).txLeft = 0) (.replyEnd p))
    ++ dueIf (secondDue c.trip) .tripUnitSecond
    ++ dueIf (secondDue c.alloc) (.allocatorSecond c.vSamples)
    ++ dueIf (secondDue c.boiler) (.boilerSecond c.boilSamples)
    ++ dueIf (secondDue c.metering) .meteringSecond
    ++ dueIf (secondDue c.comp) .compressorSecond
    ++ Bay.list.flatMap (fun b => dueIf (secondDue (c.runner.get b)) (.runnerSecond b))
    ++ Bay.list.flatMap (fun b => dueIf (secondDue (c.loops.get b)) (.airLoopSecond b (c.airSamples.get b)))

/-- The machine one millisecond later, with the commands then due waiting for it. During a power-on reset no timer runs
and no input is sampled (R195). -/
def State.tick (s : State) : State := if s.part.held then s else ⟨s.part.advance, s.part.advance.due⟩

end Sys2Proof.Machine
end

