-- ==== Sys2Proof/Machine/Dispatch.lean ====
section
/-! DEFINITION. Sys2Proof/Machine/Dispatch.lean: one arm for each command, in the order of spec/opcode_table.json. -/

namespace Sys2Proof.Machine

def exec (i : Instr) (s : State) : Host.Outcome State Fault Refusal :=
  match i with
  | .powerOnReset edge => Sys2Proof.Machine.execPowerOnReset edge s
  | .headerReceived p code => Sys2Proof.Machine.execHeaderReceived p code s
  | .lengthAbove24 p len => Sys2Proof.Machine.execLengthAbove24 p len s
  | .messageComplete p check => Sys2Proof.Machine.execMessageComplete p check s
  | .characterFramingError p => Sys2Proof.Machine.execCharacterFramingError p s
  | .gapTimeout p => Sys2Proof.Machine.execGapTimeout p s
  | .breakDetected p => Sys2Proof.Machine.execBreakDetected p s
  | .replyEnd p => Sys2Proof.Machine.execReplyEnd p s
  | .frameReply p code => Sys2Proof.Machine.execFrameReply p code s
  | .append p args => Sys2Proof.Machine.execAppend p args s
  | .withdraw p args => Sys2Proof.Machine.execWithdraw p args s
  | .collect p args => Sys2Proof.Machine.execCollect p args s
  | .runStart p args => Sys2Proof.Machine.execRunStart p args s
  | .runPause p args => Sys2Proof.Machine.execRunPause p args s
  | .runResume p args => Sys2Proof.Machine.execRunResume p args s
  | .runFinish p args => Sys2Proof.Machine.execRunFinish p args s
  | .runAbort p args => Sys2Proof.Machine.execRunAbort p args s
  | .bayAbort p args => Sys2Proof.Machine.execBayAbort p args s
  | .closureReport p args => Sys2Proof.Machine.execClosureReport p args s
  | .bayQuery p args => Sys2Proof.Machine.execBayQuery p args s
  | .plantQuery p args => Sys2Proof.Machine.execPlantQuery p args s
  | .noteRead p args => Sys2Proof.Machine.execNoteRead p args s
  | .noteAck p args => Sys2Proof.Machine.execNoteAck p args s
  | .noteEnable p args => Sys2Proof.Machine.execNoteEnable p args s
  | .plantStart p args => Sys2Proof.Machine.execPlantStart p args s
  | .plantHalt p args => Sys2Proof.Machine.execPlantHalt p args s
  | .plantRestart p args => Sys2Proof.Machine.execPlantRestart p args s
  | .manualEnter p args => Sys2Proof.Machine.execManualEnter p args s
  | .manDriveHeat p heater duty => Sys2Proof.Machine.execManDriveHeat p heater duty s
  | .manDriveFeed p count => Sys2Proof.Machine.execManDriveFeed p count s
  | .manDriveValveOpen p b => Sys2Proof.Machine.execManDriveValveOpen p b s
  | .manDriveValveClose p b => Sys2Proof.Machine.execManDriveValveClose p b s
  | .manDriveCompOn p => Sys2Proof.Machine.execManDriveCompOn p s
  | .manDriveCompOff p => Sys2Proof.Machine.execManDriveCompOff p s
  | .manDriveDampOpen p b => Sys2Proof.Machine.execManDriveDampOpen p b s
  | .manDriveDampClose p b => Sys2Proof.Machine.execManDriveDampClose p b s
  | .manualExit p args => Sys2Proof.Machine.execManualExit p args s
  | .cfgLive p args => Sys2Proof.Machine.execCfgLive p args s
  | .cfgStage p args => Sys2Proof.Machine.execCfgStage p args s
  | .cfgRead p args => Sys2Proof.Machine.execCfgRead p args s
  | .cntRead p args => Sys2Proof.Machine.execCntRead p args s
  | .cntReadClear p args => Sys2Proof.Machine.execCntReadClear p args s
  | .ledgerRead p args => Sys2Proof.Machine.execLedgerRead p args s
  | .faultClear p args => Sys2Proof.Machine.execFaultClear p args s
  | .runnerSecond b => Sys2Proof.Machine.execRunnerSecond b s
  | .allocatorSecond samples => Sys2Proof.Machine.execAllocatorSecond samples s
  | .heaterPeriodStart l => Sys2Proof.Machine.execHeaterPeriodStart l s
  | .heaterOnTimeEnd l => Sys2Proof.Machine.execHeaterOnTimeEnd l s
  | .boilerSecond samples => Sys2Proof.Machine.execBoilerSecond samples s
  | .feedPulseEnd => Sys2Proof.Machine.execFeedPulseEnd s
  | .probeReadingChange probe wet => Sys2Proof.Machine.execProbeReadingChange probe wet s
  | .meteringSecond => Sys2Proof.Machine.execMeteringSecond s
  | .sliceExpiry => Sys2Proof.Machine.execSliceExpiry s
  | .purgeEnd => Sys2Proof.Machine.execPurgeEnd s
  | .holdExpiry bays => Sys2Proof.Machine.execHoldExpiry bays s
  | .compressorSecond => Sys2Proof.Machine.execCompressorSecond s
  | .offTimerExpiry => Sys2Proof.Machine.execOffTimerExpiry s
  | .onTimerExpiry => Sys2Proof.Machine.execOnTimerExpiry s
  | .airLoopSecond b samples => Sys2Proof.Machine.execAirLoopSecond b samples s
  | .tripInputChange inp active => Sys2Proof.Machine.execTripInputChange inp active s
  | .tripUnitSecond => Sys2Proof.Machine.execTripUnitSecond s
  | .marker0Character p byte => Sys2Proof.Machine.execMarker0Character p byte s
  | .rxReturnsHigh p => Sys2Proof.Machine.execRxReturnsHigh p s

end Sys2Proof.Machine
end

