-- ==== Sys2Proof/Safety.lean ====
section
/-! DEFINITION. Sys2Proof/Safety.lean: what a safe state of the part is, in the terms in which claims are stated: the laws
that the manual says hold "in every state of the part", and what leaves other bays alone. -/

namespace Sys2Proof.Machine

/-! ## The Phase Store (R24 to R26) -/

/-- The section of the list a record belongs to: DONE, CURRENT, PENDING (R25). -/
def Record.place (r : Record) : Nat :=
  match r.phase with
  | .done _ => 0
  | .current _ => 1
  | .pending => 2

/-- All DONE records precede at most one CURRENT record, which precedes all PENDING records (R25). -/
def inOrder (rs : List Record) : Prop :=
  rs.Pairwise fun r q => r.place < q.place ∨ (r.place = q.place ∧ r.place ≠ 1)

/-- The laws of the Phase Store: the pool and the lists stay within their sizes (R24), every list is in order and an IDLE
or HELD runner has no CURRENT record (R25), and the tags of a list are distinct (R26). -/
structure Part.StoreLaw (s : Part) : Prop where
  pool : s.slotsUsed ≤ 48
  lengths : ∀ b, (s.list b).length ≤ 20
  ordered : ∀ b, inOrder (s.list b)
  tags : ∀ b, ((s.list b).map Record.tag).Nodup
  resting : ∀ b, (s.runner b).state = .idle ∨ (s.runner b).state = .held → ∀ r ∈ s.list b, r.isCurrent = false

/-! ## The runners (R42 to R44) -/

/-- The laws of the cause sets: CLOSURE while the closure is OPEN, PLANT while the mode pauses (R43), REQUEST never on an
IDLE runner (R43), RUNNING with an empty set and PAUSED with one that is not (R42, R44). -/
structure Part.CauseLaw (s : Part) : Prop where
  closure : ∀ b, (s.runner b).causes.closure = !(s.runner b).shut
  plant : ∀ b, (s.runner b).causes.plant = s.mode.pauses
  request : ∀ b, (s.runner b).state = .idle → (s.runner b).causes.request = false
  running : ∀ b, (s.runner b).state = .running → (s.runner b).causes.empty = true
  paused : ∀ b, (s.runner b).state = .paused → (s.runner b).causes.empty = false

/-! ## Ports (R4, R7, R8) -/

/-- One port holds at most two entries, and entries wait only behind a reply in transmission; a message in assembly has
a length of at most 24, no more arguments than its length, and the sum of what it has received. -/
structure PortState.Law (x : PortState) : Prop where
  places : x.buffer.length ≤ 2
  waiting : x.buffer ≠ [] → x.tx.isSome = true
  before : ∀ code args sum, x.rx = .assembling code none args sum → args = [] ∧ sum = code
  within : ∀ code n args sum, x.rx = .assembling code (some n) args sum →
    n ≤ 24 ∧ args.length ≤ n ∧ sum = code + byteOf n + args.foldl (· + ·) 0

def Part.PortLaw (s : Part) : Prop := ∀ p, (s.port p).Law

/-! ## The manifold (R112, R116) -/

/-- The states of the manifold with their holder and purge timer: a FREE or PURGE manifold has no holder, PURGE has a
running purge timer, OPEN has a holder and no running purge timer, and STALLED has an automatic holder. -/
def Steam.Law (a : Steam) : Prop :=
  match a.manifold with
  | .free => a.holder = .none
  | .purge => a.holder = .none ∧ a.purge.isSome = true
  | .open => a.holder ≠ .none ∧ a.purge = none
  | .stalled => ∃ b, a.holder = .auto b

/-! ## Trips (R89, R102, R152, R154) -/

/-- The boiler is LOCKED exactly while a boiler-class trip is latched; L0 is forced exactly while one is or BROWN
stands, and the bay heaters exactly while BROWN stands; a forced load has neither grant nor duty (R82, R89). -/
structure Part.TripLaw (s : Part) : Prop where
  locked : s.boiler.state = .locked ↔ s.boilerLatched = true
  boilerHeater : (s.load .l0).forced = (s.boilerLatched || s.brownActive)
  bayHeaters : ∀ b, (s.load (.bay b)).forced = s.brownActive
  unpowered : ∀ l, (s.load l).forced = true → (s.load l).grant = 0 ∧ (s.load l).duty = 0

/-- The law of LOWW's arming (R149): armed exactly while the boiler is HEATING, READY or KEEPWARM, or MANUAL with a duty
of L0 above 0. -/
def Part.ArmingLaw (s : Part) : Prop :=
  s.trips.armed = true ↔ (s.boiler.state = .heating ∨ s.boiler.state = .ready ∨ s.boiler.state = .keepwarm)
    ∨ (s.boiler.state = .manual ∧ 0 < (s.load .l0).duty)

/-- The law of LOWW's source (R149, R152): while LOWW is armed its input is INACTIVE, since an armed LOWW over an ACTIVE
input trips at once and the trip disarms it. -/
def Part.LowwLaw (s : Part) : Prop := s.trips.armed = true → (s.trips.inputs.get .loww).active = false

/-! ## The compressor (R136 to R139) -/

/-- A RUNNING compressor has its on timer started and its off timer stopped, and a STOPPED one the reverse; it runs only
in STARTING, ONLINE and MANUAL, and never while COND or BROWN stands. -/
structure Part.CompressorLaw (s : Part) : Prop where
  on : s.comp.running = true → s.comp.onTimer ≠ .stopped ∧ s.comp.offTimer = .stopped
  off : s.comp.running = false → s.comp.onTimer = .stopped ∧ s.comp.offTimer ≠ .stopped
  mode : s.comp.running = true → s.mode = .starting ∨ s.mode = .online ∨ s.mode = .manual
  trips : s.comp.running = true → s.condActive = false ∧ s.brownActive = false

/-! ## The dampers (R134, R135) -/

def Part.openDampers (s : Part) : Nat := (Bay.list.filter fun b => s.air.damperOpen b).length

/-- Outside plant MANUAL no damper is open by hand, and no more dampers are open than the live capacity C. -/
structure Part.DamperLaw (s : Part) : Prop where
  holders : s.air.holders.length ≤ s.live.capacity
  marks : s.mode ≠ .manual → ∀ b, s.air.marks.get b = false

/-! ## The budget (R85, R184) -/

/-- The sum of the grants of the five loads. -/
def Part.grants (s : Part) : Nat := (Load.list.map fun l => (s.load l).grant).sum

/-- Every parameter of a configuration set lies within its range, and B is a multiple of 10 W (R184). -/
def Settings.InRange (c : Settings) : Prop := (∀ q, q.lo ≤ c.get q ∧ c.get q ≤ q.hi) ∧ c.budget % 10 = 0

/-- The law of the device (R85): every grant is within its request and every request within full power, the actual power
of a heater is within its grant, and the standing load, the running compressor and the grants are within B. What keeps
it: settings in range, the live weights in the table's entries (R70, R94), and a compressor that runs only where it was
admitted and the mode lets it. -/
structure Part.BudgetLaw (s : Part) : Prop where
  live : s.live.InRange
  staged : s.staged.InRange
  weights : ∀ l, (s.load l).weight = s.live.weight l
  loads : ∀ l, (s.load l).grant ≤ (s.load l).request ∧ (s.load l).request ≤ (s.load l).full
  actual : ∀ l, (s.load l).actual ≤ (s.load l).grant
  manual : ∀ l d, (s.load l).manual = some d → d ≤ 1000
  admitted : s.comp.running = true → s.admits = true
  mode : s.comp.running = true → s.mode = .starting ∨ s.mode = .online ∨ s.mode = .manual
  budget : s.live.standing + (if s.comp.running then s.table.pComp else 0) + s.grants ≤ s.live.budget

/-! ## Grants of the arbiters (R64 to R66, R113, R130) -/

/-- A bay's claim on the steam arbiter: it waits in the queue or is the automatic holder. -/
def Part.claimsSteam (s : Part) (b : Bay) : Prop := b ∈ s.steam.queue ∨ s.steam.holder = .auto b

/-- A bay's claim on the air arbiter: it waits in the queue or is in the holder set. -/
def Part.claimsAir (s : Part) (b : Bay) : Prop := b ∈ s.air.queue ∨ b ∈ s.air.holders.map AirHolder.bay

/-- A RUNNING runner has a current record and exports its demand, any other exports NONE (R42, R64); the arbiters hold
exactly the bays with a demand of their kind (R65, R66); every queue and the holder set hold a bay once, and no holder
waits in its queue (R113, R130). The valve of a manual holder is open only in plant MANUAL (R123), and the boiler is
MANUAL only there (R98, R103, R173). -/
structure Part.ServiceLaw (s : Part) : Prop where
  causes : s.CauseLaw
  store : s.StoreLaw
  present : ∀ b, (s.runner b).state = .running ∨ (s.runner b).state = .paused → (s.current b).isSome = true
  demand : ∀ b, (s.runner b).demand = if (s.runner b).state = .running then demandFor (s.current b) else .none
  steam : ∀ b, s.claimsSteam b ↔ (s.runner b).demand = .steam
  air : ∀ b, s.claimsAir b ↔ ∃ t, (s.runner b).demand = .air t
  steamOnce : s.steam.queue.Nodup ∧ ∀ b, s.steam.holder.bay = some b → b ∉ s.steam.queue
  airOnce : (s.air.queue ++ s.air.holders.map AirHolder.bay).Nodup
  byHand : ∀ b, s.steam.holder = .manual b → s.mode = .manual
  boilerByHand : s.boiler.state = .manual → s.mode = .manual

/-- The load requests nothing, is granted nothing and has a duty of 0. -/
def Part.idleLoad (s : Part) (l : Load) : Prop := (s.load l).request = 0 ∧ (s.load l).grant = 0 ∧ (s.load l).duty = 0

/-- The law of the valves (R115): none is open while a boiler-class trip is latched or for a bay whose closure is OPEN,
and outside plant MANUAL none is open unless the boiler is READY. -/
def Part.ValveLaw (s : Part) : Prop :=
  ∀ b, s.steam.valveOpen b = true →
    s.boilerLatched = false ∧ (s.runner b).shut = true ∧ (s.mode ≠ .manual → s.boiler.state = .ready)

/-- Nothing waits that may be granted: each arbiter makes its test at every event that can make the conditions true. No bay
waits for a FREE manifold in ONLINE with no boiler-class trip latched (R114), no STALLED holder's valve lacks none of
R115's conditions (R117), and in STARTING and ONLINE no bay waits for air beside fewer than C holders (R131). -/
structure Part.GrantLaw (s : Part) : Prop where
  manifold : s.steam.manifold = .free → s.mode = .online → s.boilerLatched = false → s.steam.queue = []
  valve : ∀ b, s.steam.manifold = .stalled → s.steam.holder = .auto b →
    ¬ (s.boiler.state = .ready ∧ s.mode = .online ∧ s.steam.purge = none ∧ s.boilerLatched = false
      ∧ (s.runner b).shut = true)
  air : s.mode = .starting ∨ s.mode = .online → s.air.holders.length < s.live.capacity → s.air.queue = []

/-- The law of the heaters (R65, R66, R92, R93): outside plant MANUAL no load has a manual duty, and a bay heater has a
request, a grant or a duty above 0 only while its bay is an air holder. -/
structure Part.HeatLaw (s : Part) : Prop where
  manual : s.mode ≠ .manual → ∀ l, (s.load l).manual = none
  bays : s.mode ≠ .manual → ∀ b, b ∉ s.air.holders.map AirHolder.bay → s.idleLoad (.bay b)

/-! ## What belongs to other bays -/

/-- Nothing of any bay but `b` in the Store and the runners, no setting, no air loop, no clock and no input has
changed. -/
structure Part.SameElsewhere (s t : Part) (b : Bay) : Prop where
  store : ∀ c, c ≠ b → t.store.get c = s.store.get c
  runners : ∀ c, c ≠ b → t.runner c = s.runner c
  live : t.live = s.live
  staged : t.staged = s.staged
  loops : t.loops = s.loops
  clocks : t.clocks = s.clocks
  pins : t.pins = s.pins
  started : t.started = s.started

/-- The reply `r` is being sent on port `p`, and nothing else of any port has changed. -/
structure Part.Replied (s t : Part) (p : Port) (r : Reply) : Prop where
  here : t.port p = { s.port p with tx := some r, txLeft := r.tenths }
  others : ∀ q, q ≠ p → t.port q = s.port q

/-! ## The end of a record (R54) -/

/-- A bay notice is set. -/
def Part.noted (s : Part) (b : Bay) (f : BayNote) : Prop := (s.notice (.bp b)).flags &&& f.bit = f.bit

/-- A service notice is set. -/
def Part.notedSp (s : Part) (f : SpNote) : Prop := (s.notice .sp).flags &&& f.bit = f.bit

/-- What R54 gives at the ending of bay b's current record `r` with outcome `o`: from `s`, in which it is current, to
`t`. The record is DONE in its place and counted, and the runner is HELD, goes on to the first pending record, or is
IDLE. -/
structure Part.MovedOn (s : Part) (b : Bay) (r : Record) (o : RecordEnd) (t : Part) : Prop where
  held : r.holdAfter = true → 0 < countPending (s.list b) →
    t.list b = endCurrent o (s.list b) ∧ (t.runner b).state = .held ∧ t.noted b .held
      ∧ (t.runner b).causes = (s.runner b).causes
  next : r.holdAfter = false → 0 < countPending (s.list b) →
    t.list b = promote (endCurrent o (s.list b))
      ∧ (t.runner b).state = (if (s.runner b).causes.empty then .running else .paused)
      ∧ (t.runner b).causes = (s.runner b).causes
  last : countPending (s.list b) = 0 →
    t.list b = endCurrent o (s.list b) ∧ (t.runner b).state = .idle ∧ t.noted b .ended
      ∧ (t.runner b).causes = { (s.runner b).causes with request := false }
  runs : (t.runner b).unserved = 0 ∧ (t.runner b).alert = false
  notify : r.notify = true → t.noted b .done
  counted :
    (t.bayCounters b).complete = (s.bayCounters b).complete + (if o = .complete then 1 else 0)
      ∧ (t.bayCounters b).short = (s.bayCounters b).short + (if o = .short then 1 else 0)
      ∧ (t.bayCounters b).cut = (s.bayCounters b).cut + (if o = .complete ∨ o = .short then 0 else 1)

/-! ## Messages on a port -/

/-- The command `c` discards the message that port `p` has in assembly, whose header held `code`: a gap above 5 ms
(R5), a character framing error (R2), a length above 24, or a check byte that leaves the sum other than 0 (R4). -/
def PortState.Discards (x : PortState) (p : Port) (code : Byte) (c : Instr) : Prop :=
  x.inBreak = false ∧ ∃ len args sum, x.rx = .assembling code len args sum
    ∧ (c = .gapTimeout p ∨ c = .characterFramingError p
      ∨ (∃ l : Byte, c = .lengthAbove24 p l ∧ 24 < l.toNat ∧ len = none)
      ∨ ∃ n k, c = .messageComplete p k ∧ len = some n ∧ args.length = n ∧ sum + k ≠ 0)

/-- The code is assigned to no request (R9). -/
def unassigned (code : Byte) : Prop := ∀ r : Request, r.code ≠ code

/-- A request is answered on its port and changes nothing else. -/
def Answers (c : Instr) (s : State) (p : Port) (r : Reply) : Prop := exec c s = .next ⟨s.part.send p r, s.pending⟩

/-- The arguments are no MAN_DRIVE (R181, steps 1 to 3): a length other than 3, a selector that names no drive, or for a
valve, the compressor or a damper a value that is neither 0 nor 1 (section 10.6). -/
def noDrive (args : List Byte) : Prop :=
  args.length ≠ 3 ∨ ∃ x lo hi, args = [x, lo, hi] ∧
    (x ∉ [0x01, 0x02, 0x03, 0x04, 0x05, 0x08, 0x11, 0x12, 0x13, 0x14, 0x18, 0x21, 0x22, 0x23, 0x24]
      ∨ 0x11 ≤ x.toNat ∧ 1 < lo.toNat + 256 * hi.toNat)

/-! ## Records in a list -/

/-- The first PENDING record of `before` is CURRENT in its place in `after`, with the working fields of R21 at their
first values (R35). -/
def TakesFirstPending (before after : List Record) : Prop :=
  ∃ pre r post, before = pre ++ r :: post ∧ (∀ x ∈ pre, x.isPending = false) ∧ r.isPending = true
    ∧ after = pre ++ { r with phase := .current ⟨.burst, 0, 0, 0, 0⟩ } :: post

/-- No arbiter holds a claim of the bay. -/
def Part.claimsNothing (s : Part) (b : Bay) : Prop := ¬ s.claimsSteam b ∧ ¬ s.claimsAir b

/-- Both arbiters are empty: no bay waits or holds, and no damper stands open for a holder. -/
def Part.ArbitersEmpty (s : Part) : Prop :=
  s.steam.queue = [] ∧ s.steam.holder = .none ∧ s.air.queue = [] ∧ s.air.holders = []

/-- A runner RUNNING before is PAUSED after, and any other keeps its state (R44). -/
def RunState.whenPaused (r : RunState) : RunState := if r = .running then .paused else r

/-! ## A RUNNING runner's second (R57) -/

/-- The second is served: for a record that takes steam, the bay holds the manifold and it is OPEN; for one that takes
air, the bay is a holder and the compressor is RUNNING; for a REST record always (R57). -/
def Part.secondServed (s : Part) (b : Bay) (r : Record) (w : Work) : Bool :=
  let bySteam : Bool := decide (s.steam.holder = .auto b ∧ s.steam.manifold = .open)
  let byAir : Bool := decide (b ∈ s.air.holders.map AirHolder.bay) && s.comp.running
  match r.body, w.sub with
  | .steam .., _ => bySteam
  | .dry .., _ => byAir
  | .refresh .., .burst => bySteam
  | .refresh .., .airing => byAir
  | .rest _, _ => true

/-- The airing count after a second: one more at a served AIRING second of a REFRESH record, up to 900 (R21, R62). -/
def Record.airingLater (r : Record) (w : Work) (served : Bool) : Nat :=
  if served = true ∧ r.body.isRefresh = true ∧ w.sub = .airing then min 900 (w.airing + 1) else w.airing

/-- The CURRENT record one RUNNING second later: its counts go up to 65,535 (R19, R57). -/
def Record.secondLater (r : Record) (w : Work) (served : Bool) : Record :=
  { r with
    phase := .current { w with airing := r.airingLater w served }
    activeS := min 65535 (r.activeS + 1)
    servedS := if served then min 65535 (r.servedS + 1) else r.servedS
    starvedS := if served then r.starvedS else min 65535 (r.starvedS + 1) }

/-- The list with its CURRENT record replaced. -/
def withCurrent (rs : List Record) (x : Record) : List Record := rs.map fun r => if r.isCurrent then x else r

/-- The runner's timer of a bay started anew (R55). -/
def Part.secondStarts (s : Part) (b : Bay) : Part :=
  { s with clocks := { s.clocks with runner := s.clocks.runner.set b 0 } }

/-! ## Configuration entries (R184, R185, section 10.6) -/

/-- The selector of a parameter: 01h to 1Ah in the order of R184. -/
def Param.selector (q : Param) : Byte := byteOf ((Param.liveList ++ Param.stagedList).idxOf q + 1)

/-- An entry of a configuration request: a parameter and the two bytes of its value. -/
structure ConfigEntry where
  param : Param
  lo : Byte
  hi : Byte
deriving DecidableEq, Repr

/-- The argument bytes of a list of entries. -/
def ConfigEntry.args (es : List ConfigEntry) : List Byte := es.flatMap fun e => [e.param.selector, e.lo, e.hi]

/-- The value sent: signed for the two temperatures, unsigned otherwise (R184). -/
def ConfigEntry.sent (e : ConfigEntry) : Int :=
  if e.param = .tSet ∨ e.param = .tKeep then (e.hi ++ e.lo).toInt else (e.hi ++ e.lo).toNat

/-- The value stored: the nearest of the parameter's range, and B rounded down to a multiple of 10 W (R185). -/
def ConfigEntry.stored (e : ConfigEntry) : Nat :=
  let n := (max (e.param.lo : Int) (min e.param.hi e.sent)).toNat
  if e.param = .budget then n - n % 10 else n

/-- The set after the entries are written. -/
def Settings.after (c : Settings) (es : List ConfigEntry) : Settings :=
  es.foldl (fun c e => c.set e.param e.stored) c

/-- The reply to a configuration request: the stored values, and bit i set where entry i was clamped (R185). -/
def ConfigEntry.reply (es : List ConfigEntry) : List Byte :=
  es.flatMap (fun e => le16 e.stored) ++ [maskByte (es.map fun e => decide ((e.stored : Int) ≠ e.sent))]

/-- The table with the weights of a set in its entries (R94). -/
def LoadTable.weighted (t : LoadTable) (c : Settings) : LoadTable :=
  { t with loads := ⟨{ t.loads.l0 with weight := c.w0 },
      { b1 := { t.loads.bays.b1 with weight := c.w.b1 }, b2 := { t.loads.bays.b2 with weight := c.w.b2 }
        b3 := { t.loads.bays.b3 with weight := c.w.b3 }, b4 := { t.loads.bays.b4 with weight := c.w.b4 } }⟩ }

/-- The table with a manual duty stored for a load, and its request (R92). -/
def LoadTable.driven (t : LoadTable) (l : Load) (d : Nat) : LoadTable :=
  let e := t.loads.get l
  { t with loads := t.loads.set l { e with manual := some d, request := d * e.full / 1000 } }

/-- The table after the return of a holder to the air queue, with its heater request 0 and its allocation (R75, R134). -/
def LoadTable.returned (t : LoadTable) (b : Bay) (h : Nat) : LoadTable :=
  ({ t with loads := t.loads.set (.bay b) { t.loads.get (.bay b) with request := 0 } } : LoadTable).allocate h

/-- The table after an allocation with headroom `h` in which L0 is forced off or not. -/
def LoadTable.lifted (t : LoadTable) (forced : Bool) (h : Nat) : LoadTable :=
  ({ t with loads := { t.loads with l0 := { t.loads.l0 with forced := forced } } } : LoadTable).allocate h

/-! ## The headroom and the timers of the compressor -/

/-- H for a compressor state: B − S, less P_comp while it runs, and never below 0 (R77). -/
def Part.headroomWith (s : Part) (running : Bool) : Nat :=
  s.live.budget - s.live.standing - (if running then s.table.pComp else 0)

/-- LOWW's arming after an allocation: a MANUAL boiler's follows L0's duty, any other stands (R149). -/
def Part.armedAfter (s : Part) (t : LoadTable) : Bool :=
  if s.boiler.state = .manual then decide (0 < t.loads.l0.duty) else s.trips.armed

/-- LOWW does not become armed on an ACTIVE input by an allocation that gives `t` (R149): with the input ACTIVE, the
boiler is not MANUAL, or L0 is left without a duty. -/
def Part.NoLowwTrip (s : Part) (t : LoadTable) : Prop :=
  (s.trips.inputs.get .loww).active = true → s.boiler.state = .manual → t.loads.l0.duty = 0

/-! ## The Allocator's second (R72, R73) -/

/-- The load takes part in an allocation (R82). -/
def LoadTable.takesPart (t : LoadTable) (l : Load) : Bool :=
  !(t.loads.get l).forced && (t.loads.get l).request ≠ 0

/-- The sum of the participants' requests (R82). -/
def LoadTable.demanded (t : LoadTable) : Nat :=
  ((Load.list.filter t.takesPart).map fun l => (t.loads.get l).request).sum

/-- The mean of voltage samples in millivolts, each read as at most 300 V, in whole volts rounded down (R72). -/
def meanVolts (samples : List Nat) : Nat := (samples.map (min 300000)).sum / (samples.length * 1000)

/-- The mean of temperature samples in thousandths of a degree, each within −40 to 200 °C, in tenths rounded down
(R97, R141). -/
def meanTenths (samples : List Int) : Int :=
  (samples.map fun x => max (-40000) (min 200000 x)).sum / (samples.length * 100)

/-- A load at the clamped voltage `v`: full power R·V²/V_nom², and the request lowered to it, or renewed from the manual
duty (R73, R92). -/
def LoadEntry.atVolts (e : LoadEntry) (v vNom : Nat) : LoadEntry :=
  let full := e.rating * (v * v) / (vNom * vNom)
  { e with full := full, request := (match e.manual with | some d => d * full / 1000 | none => min e.request full) }

/-- The table at a voltage average, before its allocation (R73). -/
def LoadTable.atVolts (t : LoadTable) (v : Nat) : LoadTable :=
  let c := max 180 (min 264 v)
  { t with vAvg := v, vClamped := c, loads := t.loads.map fun e => e.atVolts c t.vNom }

/-- The table at a voltage average `v` as BROWN leaves it, after the lift's allocation (R153): the bay heaters are free,
and L0 is forced where a boiler-class trip is latched. -/
def LoadTable.unbrowned (t : LoadTable) (latched : Bool) (v h : Nat) : LoadTable :=
  let free := t.loads.map fun e => { e with forced := false }
  ({ t with vAvg := v, loads := { free with l0 := { free.l0 with forced := latched } } } : LoadTable).allocate h

/-- The part at the Allocator's expiry: its timer starts anew on the last sampled voltage. -/
def Part.allocStarts (s : Part) (samples : List Nat) : Part :=
  { s with
    clocks := { s.clocks with alloc := 0, vSamples := [] }
    pins := { s.pins with vsense := samples.getLast?.getD s.pins.vsense } }

/-- The run of averages below 190 V after one more (R151). -/
def TripUnit.lowAfter (t : TripUnit) (v : Nat) : Nat := if v < 190 then min 255 (t.lowRun + 1) else 0

/-- The run of averages of at least 200 V after one more (R151). -/
def TripUnit.highAfter (t : TripUnit) (v : Nat) : Nat := if 200 ≤ v then min 255 (t.highRun + 1) else 0

/-! ## The compressor's own starts and stops -/

/-- What a start of the controller's own accord asks (R137), apart from the off timer. -/
def Part.startWaits (s : Part) : Prop :=
  s.air.holders ≠ [] ∧ (s.trips.inputs.get .cond).active = false ∧ s.trips.brownSource = false
    ∧ (s.mode = .starting ∨ s.mode = .online) ∧ s.live.standing + s.table.pComp ≤ s.live.budget

/-- The part with its compressor started, counted, and its allocation made (R79, R137). -/
def Part.withCompOn (s : Part) : Part :=
  let table := s.table.allocate (s.headroomWith true)
  { s with
    comp := ⟨true, .running 60000, .stopped⟩, table := table
    counters := { s.counters with plant := { s.counters.plant with starts := s.counters.plant.starts + 1 } }
    trips := { s.trips with armed := s.armedAfter table } }

/-- The part with its compressor stopped, and its allocation made (R79, R138). -/
def Part.withCompOff (s : Part) : Part :=
  let table := s.table.allocate (s.headroomWith false)
  { s with
    comp := ⟨false, .stopped, .running 180000⟩, table := table
    trips := { s.trips with armed := s.armedAfter table } }

/-- The compressor neither starts nor stops between the two parts. -/
def Part.CompKept (s t : Part) : Prop := t.comp = s.comp ∧ t.counters.plant = s.counters.plant

/-- The start test that follows a grant of air has been made on the holders of `t` (R131, R137). -/
def Part.StartTested (s t : Part) : Prop :=
  let starts : Prop := s.comp.running = false ∧ s.comp.offTimer = .expired ∧ ({ s with air := t.air } : Part).startWaits
  (starts → t.comp = ⟨true, .running 60000, .stopped⟩
      ∧ t.counters.plant = { s.counters.plant with starts := s.counters.plant.starts + 1 })
  ∧ (¬ starts → s.CompKept t)

/-! ## Joins, grants and releases (R65) -/

/-- The purge timer after a start with a gap in seconds: it runs on to the later end, and a gap of 0 starts nothing
(R116). -/
def Steam.purgeFrom (a : Steam) (gap : Nat) : Option Nat :=
  if gap = 0 then a.purge else some (max (a.purge.getD 0) (gap * 1000))

/-- `a` is the steam arbiter of `s` after its queue has become `queue` and the grant test has been made (R114): the head
of the queue is granted a FREE manifold in ONLINE with no boiler-class trip latched, OPEN where R115 lets its valve open
and STALLED otherwise (R117). -/
def Part.SteamGrants (s : Part) (queue : List Bay) (a : Steam) : Prop :=
  let grants : Prop := queue ≠ [] ∧ s.steam.manifold = .free ∧ s.mode = .online ∧ s.trips.latches.any = false
  (¬ grants → a = { s.steam with queue := queue })
  ∧ (grants → ∀ c ∈ queue.head?, a = { s.steam with
      queue := queue.tail, holder := .auto c, slice := some (s.live.slice * 1000)
      manifold :=
        if s.boiler.state = .ready ∧ s.steam.purge = none ∧ (s.runner c).shut = true then .open else .stalled })

/-- `a` is the steam arbiter of `s` after its holder has left with `queue` waiting (R119, R121): the purge timer starts and
the manifold is PURGE, or where no purge timer runs FREE with its grant test made (R116, R120). A gap of 0 beside an
earlier purge timer leaves PURGE to that timer's end (DESIGN CHOICE, log entry 27). -/
def Part.SteamReleased (s : Part) (queue : List Bay) (a : Steam) : Prop :=
  let purge := s.steam.purgeFrom s.live.purgeGap
  let left (m : ManifoldState) : Steam := ⟨queue, .none, m, none, purge, s.steam.yield⟩
  (purge ≠ none → a = left .purge)
  ∧ (purge = none → ({ s with steam := left .free } : Part).SteamGrants queue a)

/-- `a` is the air arbiter of `s` after queue and holder set have become these and the grant test has been made (R131):
in STARTING and ONLINE the head of the queue is granted, in queue order, as long as fewer than C bays hold. -/
def Part.AirGrants (s : Part) (queue : List Bay) (holders : List AirHolder) (a : Air) : Prop :=
  let n := if s.mode = .starting ∨ s.mode = .online then s.live.capacity - holders.length else 0
  a = { s.air with
    queue := queue.drop n, holders := holders ++ (queue.take n).map fun c => ⟨c, 0, s.live.airSlice⟩ }

/-- What the placing of bay b's demand does (R65), from `s`, where the bay has no claim, to `t`, whose runner exports the
demand placed. A STEAM demand joins the TAIL of the steam queue, a join to an empty queue takes a KEEPWARM boiler to
HEATING (R101), and the grant test follows (R113, R114). An AIR demand joins the TAIL of the air queue, the grant test
follows (R130, R131), and a grant is followed by the compressor's start test (R137). No demand moves nothing. LOWW is
armed as R149 has it in KEEPWARM (`Part.ArmingLaw`). -/
def Part.DemandPlaced (s t : Part) (b : Bay) : Prop :=
  match (t.runner b).demand with
  | .none => t.steam = s.steam ∧ t.air = s.air ∧ s.CompKept t ∧ t.table = s.table ∧ t.boiler = s.boiler
  | .steam => (s.boiler.state = .keepwarm → s.ArmingLaw) →
      ({ s with runners := t.runners } : Part).SteamGrants (s.steam.queue ++ [b]) t.steam
      ∧ t.boiler = (if s.boiler.state = .keepwarm ∧ s.steam.queue = [] then { s.boiler with state := .heating }
          else s.boiler)
      ∧ t.air = s.air ∧ s.CompKept t ∧ t.table = s.table
  | .air _ => s.AirGrants (s.air.queue ++ [b]) s.air.holders t.air
      ∧ (t.air.holders = s.air.holders → s.CompKept t) ∧ (t.air.holders ≠ s.air.holders → s.StartTested t)
      ∧ t.table = (if t.comp = s.comp then s.table else s.table.allocate (s.headroomWith true))
      ∧ t.steam = s.steam ∧ t.boiler = s.boiler

/-- What the withdrawal of bay b's demand does (R65), from `s`, whose runner exports it, to `t`. A bay that waits leaves
its queue and those behind it move up (R113, R130). The holder of the manifold leaves it with a purge (R119). A holder of
air leaves the set with its heater request 0 (log entry 8), the grant test follows (R131, R133), and the compressor starts
with a grant that lets it (R137), or stops where the set is left empty, which is judged after the grant test (DEDUCED, log
entry 11), and its on timer has expired (R138). -/
def Part.DemandWithdrawn (s t : Part) (b : Bay) : Prop :=
  t.boiler = s.boiler ∧ t.trips = s.trips ∧ t.live = s.live ∧ t.mode = s.mode
  ∧ match (s.runner b).demand with
    | .none => t.steam = s.steam ∧ t.air = s.air ∧ s.CompKept t ∧ t.table = s.table
    | .steam => (s.steam.holder = .auto b → s.SteamReleased s.steam.queue t.steam)
        ∧ (s.steam.holder ≠ .auto b → t.steam = { s.steam with queue := s.steam.queue.erase b })
        ∧ t.air = s.air ∧ s.CompKept t ∧ t.table = s.table
    | .air _ =>
        let kept := s.air.holders.filter fun h => h.bay ≠ b
        let rests : Prop := t.air.holders = [] ∧ s.comp.running = true ∧ s.comp.onTimer = .expired
        t.steam = s.steam ∧ (t.load (.bay b)).request = 0 ∧ (t.load (.bay b)).grant = 0
        ∧ (b ∉ s.air.holders.map AirHolder.bay →
            t.air = { s.air with queue := s.air.queue.erase b } ∧ s.CompKept t)
        ∧ (b ∈ s.air.holders.map AirHolder.bay → s.AirGrants s.air.queue kept t.air
            ∧ (t.air.holders ≠ kept → s.StartTested t)
            ∧ (t.air.holders = kept → ¬ rests → s.CompKept t)
            ∧ (rests → t.comp = ⟨false, .stopped, .running 180000⟩ ∧ t.counters.plant = s.counters.plant))

/-- At a change from one demand of the bay to another the old one is withdrawn first and the new one placed after it, as
one event (R65). -/
def Part.Redemanded (s t : Part) (b : Bay) : Prop := ∃ u, s.DemandWithdrawn u b ∧ u.DemandPlaced t b

/-! ## The boiler's entries -/

/-- The boiler after its entry to COLD, MANUAL or LOCKED (R102, R103, R107): the stroke count, the idle count and the manual
strokes are 0, the refill flag is cleared and a feed pulse ends. -/
def Boiler.entered (x : Boiler) (st : BoilerState) : Boiler :=
  { x with state := st, strokes := 0, refill := false, idle := 0, manualStrokes := 0, feed := none }

/-- The boiler after PLANT_HALT, PLANT_RESTART or MANUAL_EXIT (R103): COLD with that entry's effects, a LOCKED one as it was,
and one already COLD too (DEDUCED, log entry 23). -/
def Boiler.goneCold (x : Boiler) : Boiler := if x.state = .locked ∨ x.state = .cold then x else x.entered .cold

/-- The boiler after the plant mode has become MANUAL (R103): MANUAL with that entry's effects, and a LOCKED one as it
was. -/
def Boiler.goneManual (x : Boiler) : Boiler := if x.state = .locked then x else x.entered .manual

/-! ## Faults and latches -/

/-- The part with the fault `c` counted up to 255, and held in the first-fault record where that was empty, with what
stands at the fault (R156, R157). -/
def Part.faulted (s : Part) (c : FaultCause) : Part :=
  { s with trips := { s.trips with
    faultCount := min 255 (s.trips.faultCount + 1)
    first := s.trips.first.or (some ⟨c, s.trips.seconds, s.mode, s.boiler.tb, s.table.vAvg⟩) } }

/-- The fault `c` from `s` to `t`: counted up to 255, and held in an empty first-fault record with what stood at the
fault (R156, R157). -/
def Part.Recorded (s t : Part) (c : FaultCause) : Prop :=
  t.trips.faultCount = min 255 (s.trips.faultCount + 1)
    ∧ (s.trips.first ≠ none → t.trips.first = s.trips.first)
    ∧ (s.trips.first = none →
        t.trips.first = some ⟨c, s.trips.seconds, s.mode, s.boiler.tb, s.table.vAvg⟩ ∧ t.notedSp .fault)

/-- What the lock of the boiler leaves (R102, R122, R152): the boiler LOCKED with nothing running in it, L0 forced and
its grant gone, no valve open, and an automatic holder at the head of the queue. -/
structure Part.LockedOut (s t : Part) : Prop where
  boiler : t.boiler = { s.boiler.entered .locked with tb := t.boiler.tb, carry := t.boiler.carry }
  heater : (t.load .l0).forced = true
  unpowered : (t.load .l0).grant = 0 ∧ (t.load .l0).duty = 0
  manual : s.trips.brownSource = false → t.mode = .manual → (t.load .l0).manual = some 0 ∧ (t.load .l0).request = 0
  armed : t.trips.armed = false
  manifold : t.steam.manifold = .free ∧ t.steam.holder = .none
  queue : t.steam.queue = (match s.steam.holder with | .auto b => b :: s.steam.queue | _ => s.steam.queue)

/-- LOWW's activation where it becomes armed on an ACTIVE input (R149), from `s` with no boiler-class trip latched, or
with latches that the same event has cleared: LOWW alone is latched, the boiler LOCKED, L0 off, and the activation
reported, counted and recorded (R155 to R157). -/
structure Part.LowwTrips (s t : Part) : Prop where
  latched : t.trips.latches = ⟨false, false, true, false, false⟩
  boiler : t.boiler.state = .locked ∧ t.trips.armed = false
  heater : (t.load .l0).forced = true ∧ (t.load .l0).grant = 0 ∧ (t.load .l0).duty = 0
  off : t.outputs.heat.get .l0 = false
  counted : t.counters.plant.boilerTrips = s.counters.plant.boilerTrips + 1 ∧ t.notedSp .trip
  recorded : s.Recorded t (.trip .loww)
  noted : ∀ b, (s.runner b).state ≠ .idle → t.noted b .plant

/-- Bytes 0 to 11 of FAULT_CLEAR's reply (R157, R159, section 10.6), in the codes of section 10.3: the first-fault
record, or zeros where it is empty. -/
def FirstFault.bytes (f : Option FirstFault) : List Byte :=
  match f with
  | none => List.replicate 12 0
  | some f =>
    let cause : Byte := match f.cause with
      | .trip .ovp => 0x01
      | .trip .ovt => 0x02
      | .trip .loww => 0x03
      | .trip .feed => 0x04
      | .trip .sensor => 0x05
      | .trip .tank => 0x06
      | .trip .cond => 0x07
      | .trip .brown => 0x08
      | .airSensor _ => 0x09
    let bay : Byte := match f.cause with
      | .airSensor .b1 => 1
      | .airSensor .b2 => 2
      | .airSensor .b3 => 3
      | .airSensor .b4 => 4
      | .trip _ => 0
    let mode : Byte := match f.mode with
      | .offline => 0x00
      | .starting => 0x01
      | .online => 0x02
      | .manualPending => 0x03
      | .manual => 0x04
    [1, cause, bay] ++ le32 f.seconds.toNat ++ [mode] ++ le16s f.tb ++ le16 f.volts

/-! ## Heater energy (R110, R144) -/

/-- Watts that a load draws: its duty of its full power (R88). -/
def LoadEntry.draw (e : LoadEntry) : Nat := e.duty * e.full / 1000

end Sys2Proof.Machine
end

