-- ==== Sys2Proof/Certificates/Slice0/Obligations.lean ====
section
/-! DEFINITION. Sys2Proof/Certificates/Slice0/Obligations.lean: the statements about the model, in the order of the
manual's chapters. Each docstring names the rules a statement formalises, or the log entry where it rests on a choice
of the model. -/

open Sys2Proof Sys2Proof.Machine

/-! ## The machine: steps, time and reset -/

/-- One step takes the command at the front of the queue, runs it with the queue's rest, and every command completes
with that rest waiting: no command of the table faults or is refused by the model. -/
def Obligations.StepRunsTheFrontCommand : Prop :=
  ∀ (part : Part) (c : Instr) (rest : List Instr),
    step ⟨part, c :: rest⟩ = exec c ⟨part, rest⟩ ∧ ∃ t, exec c ⟨part, rest⟩ = .next ⟨t, rest⟩

/-- DESIGN CHOICE (log entries 2, 21 and 29): with no command waiting and no power-on reset in progress one millisecond
passes. The running timers and the seconds move on by it, the inputs are sampled at their rates, an open trip wire as
active and an open probe as dry (R195), nothing else of the part changes, and exactly the expiries and input changes that
are then due come to wait, each once. During a power-on reset nothing passes (R195). -/
def Obligations.AnIdleMillisecondAdvancesTheTimers : Prop :=
  ∀ s : Part,
    let left : Timer → Timer
      | .running n => .running (n - 1)
      | x => x
    let run (level reading : Bool) (n : Nat) : Nat := if level = reading then 0 else n + 1
    let c := s.clocks
    let held : Prop := s.pins.resetn = false ∨ s.pins.supply = false ∨ s.started = false
    (held → step ⟨s, []⟩ = .next ⟨s, []⟩)
    ∧ (¬ held → ∃ t q, step ⟨s, []⟩ = .next ⟨t, q⟩
      ∧ t = { s with
          ports := t.ports, table := { s.table with heat := t.table.heat }
          boiler := { s.boiler with feed := s.boiler.feed.map (· - 1) }
          steam := { s.steam with
            slice := if s.steam.manifold = .open then s.steam.slice.map (· - 1) else s.steam.slice
            purge := s.steam.purge.map (· - 1) }
          air := { s.air with
            holders := if s.comp.running then s.air.holders.map (fun h => { h with heldMs := h.heldMs + 1 })
              else s.air.holders }
          comp := ⟨s.comp.running, left s.comp.onTimer, left s.comp.offTimer⟩
          trips := { s.trips with inputs := t.trips.inputs }, clocks := t.clocks }
      ∧ (∀ p, t.port p = { s.port p with
          txLeft := (s.port p).txLeft - (if (s.port p).tx = none then 0 else if s.fast then 576 else 192) })
      ∧ (∀ l, t.table.heat.get l = ⟨(s.table.heat.get l).pos + 1, (s.table.heat.get l).onTime⟩)
      ∧ (∀ i, t.trips.inputs.get i = let d := s.trips.inputs.get i
          ⟨d.active, run (decide (s.pins.trips.get i ≠ .low)) d.active d.run⟩)
      ∧ (t.clocks.alloc, t.clocks.boiler, t.clocks.metering, t.clocks.comp, t.clocks.trip)
          = (c.alloc + 1, c.boiler + 1, c.metering + 1, c.comp + 1, c.trip + 1)
      ∧ (∀ b, t.clocks.runner.get b = c.runner.get b + 1 ∧ t.clocks.loops.get b = c.loops.get b + 1)
      ∧ t.clocks.vSamples = (if (c.alloc + 1) % 10 = 0 then c.vSamples ++ [s.pins.vsense] else c.vSamples)
      ∧ t.clocks.boilSamples = (if (c.boiler + 1) % 100 = 0 then c.boilSamples ++ [s.pins.tBoil] else c.boilSamples)
      ∧ (∀ b, t.clocks.airSamples.get b = (if (c.loops.get b + 1) % 100 = 0 then
          c.airSamples.get b ++ [s.pins.tAir.get b] else c.airSamples.get b))
      ∧ (t.clocks.loRun, t.clocks.hiRun) = (if (c.boiler + 1) % 100 = 0 then
          (run (decide (s.pins.probeLo = .high)) s.boiler.loWet c.loRun,
            run (decide (s.pins.probeHi = .high)) s.boiler.hiWet c.hiRun)
          else (c.loRun, c.hiRun))
      ∧ q.Nodup ∧ ∀ x, x ∈ q ↔ match x with
        | .purgeEnd => t.steam.purge = some 0
        | .sliceExpiry => t.steam.manifold = .open ∧ t.steam.slice = some 0
        | .holdExpiry bays => t.comp.running = true ∧ bays ≠ []
            ∧ bays = (t.air.holders.filter fun h => h.lengthS * 1000 ≤ h.heldMs).map AirHolder.bay
        | .offTimerExpiry => t.comp.offTimer = .running 0
        | .onTimerExpiry => t.comp.onTimer = .running 0
        | .feedPulseEnd => t.boiler.feed = some 0
        | .heaterPeriodStart l => 2000 ≤ (t.table.heat.get l).pos
        | .heaterOnTimeEnd l => let h := t.table.heat.get l
            h.pos < 2000 ∧ h.pos = h.onTime ∧ 0 < h.onTime
        | .probeReadingChange .lo wet => 20 ≤ t.clocks.loRun ∧ wet = !t.boiler.loWet
        | .probeReadingChange .hi wet => 20 ≤ t.clocks.hiRun ∧ wet = !t.boiler.hiWet
        | .tripInputChange i active => let d := t.trips.inputs.get i
            (if d.active then 500 else 20) ≤ d.run ∧ active = !d.active
        | .replyEnd p => (t.port p).tx ≠ none ∧ (t.port p).txLeft = 0
        | .tripUnitSecond => 1000 ≤ t.clocks.trip
        | .allocatorSecond samples => 1000 ≤ t.clocks.alloc ∧ samples = t.clocks.vSamples
        | .boilerSecond samples => 1000 ≤ t.clocks.boiler ∧ samples = t.clocks.boilSamples
        | .meteringSecond => 1000 ≤ t.clocks.metering
        | .compressorSecond => 1000 ≤ t.clocks.comp
        | .runnerSecond b => 1000 ≤ t.clocks.runner.get b
        | .airLoopSecond b samples => 1000 ≤ t.clocks.loops.get b ∧ samples = t.clocks.airSamples.get b
        | _ => False)

/-- POWER_ON_RESET (R195). A fall of RESETN, and a power-up, begin it: every plant output is held low and every TX and
ATTN high, no port receives, no timer runs and no input is sampled, and the bit rate stands. A rise of RESETN with a valid
supply ends it: every block starts from the values its chapter gives for power-on reset (R15, R40, R42, R71, R96, R111,
R129, R136, R141, R146, R162, R172, R184, R189), its heater outputs off and every timer of a second at its start, with
RATESEL sampled (R1). A rise without a valid supply does not end it, and a supply that becomes valid ends nothing by
itself (DESIGN CHOICE, log entry 32). The inner state during the reset, and what stays of the input levels and of the free
choices of order, are the model's (DESIGN CHOICE, log entries 3, 5 and 6). -/
def Obligations.PowerOnResetGivesTheResetValues : Prop :=
  ∀ (s : State) (fast : Bool),
    let pins := s.part.pins
    let defaults : Settings :=
      { budget := 3450, standing := 150, w0 := 8, w := ⟨4, 4, 4, 4⟩, slice := 15, purgeGap := 1, capacity := 2
        airSlice := 300, starveAlert := 120, tSet := 1200, tKeep := 950, keepDelay := 600, kb := 40, ka := 8
        strokeLimit := 120, r0 := 2400, r := ⟨600, 600, 600, 600⟩, pComp := 900, vNom := 230, yield := 1550 }
    let fresh (t : Part) : Prop :=
      (∀ b, t.store.get b = ⟨[], 0⟩) ∧ t.freeSlots = 48
      ∧ (∀ b, t.runner b = ⟨.idle, ⟨false, true, true⟩, false, .none, 0, false⟩)
      ∧ t.load .l0 = ⟨2400, 2400, 8, 0, 0, 0, false, false, none⟩
      ∧ (∀ b, t.load (.bay b) = ⟨600, 600, 4, 0, 0, 0, false, false, none⟩)
      ∧ (t.table.pComp, t.table.vAvg, t.table.vClamped, t.table.vNom) = (900, 230, 230, 230)
      ∧ (t.table.headroom, t.table.unallocated, t.table.rounds, t.table.number) = (3300, 3300, 0, 0)
      ∧ t.boiler = ⟨.cold, 0, false, false, 0, false, 0, 0, 0, none⟩
      ∧ t.steam = ⟨[], .none, .free, none, none, 1550⟩
      ∧ t.air.queue = [] ∧ t.air.holders = [] ∧ (∀ b, t.air.marks.get b = false)
      ∧ t.comp = ⟨false, .stopped, .running 180000⟩ ∧ (∀ b, t.loop b = ⟨0, false, 0⟩)
      ∧ (∀ i, t.trips.inputs.get i = ⟨false, 0⟩) ∧ t.trips.latches.any = false ∧ t.trips.armed = false
      ∧ (t.trips.sensorSource, t.trips.brownSource, t.trips.lowRun, t.trips.highRun) = (false, false, 0, 0)
      ∧ (t.trips.first, t.trips.faultCount, t.trips.seconds) = (none, 0, 0)
      ∧ (∀ p, t.notice p = ⟨0, 0x1F⟩) ∧ t.mode = .offline
      ∧ t.live = defaults ∧ t.staged = defaults
      ∧ t.counters.plant = ⟨0, 0, 0, 0, 0, 0, 0⟩ ∧ (∀ b, t.bayCounters b = ⟨0, 0, 0, 0, 0, 0, 0⟩)
      ∧ (∀ p, t.counters.frameErrors.get p = 0 ∧ t.counters.overruns.get p = 0)
      ∧ (∀ l, t.table.heat.get l = ⟨0, 0⟩ ∧ t.outputs.heat.get l = false)
      ∧ t.clocks = ⟨⟨0, 0, 0, 0⟩, 0, 0, 0, 0, ⟨0, 0, 0, 0⟩, 0, [], [], ⟨[], [], [], []⟩, 0, 0⟩
      ∧ t.orders = s.part.orders
    let begins (edge : ResetEdge) (pins : Pins) : Prop := ∃ u, exec (.powerOnReset edge) s = .next ⟨u, s.pending⟩
      ∧ fresh u ∧ u.pins = pins ∧ u.fast = s.part.fast ∧ u.started = false
      ∧ (∀ p, u.port p = ⟨.idle, true, [], none, 0, false⟩)
      ∧ (∀ l, u.pinLevels.heat.get l = false) ∧ u.pinLevels.feed = false ∧ u.pinLevels.comp = false
      ∧ (∀ b, u.pinLevels.valve.get b = false ∧ u.pinLevels.damp.get b = false)
      ∧ (∀ p, u.pinLevels.tx.get p = true ∧ u.pinLevels.attn.get p = true)
      ∧ (∀ p code, exec (.headerReceived p code) ⟨u, s.pending⟩ = .next ⟨u, s.pending⟩
          ∧ exec (.rxReturnsHigh p) ⟨u, s.pending⟩ = .next ⟨u, s.pending⟩)
      ∧ step ⟨u, []⟩ = .next ⟨u, []⟩
    let moves (edge : ResetEdge) (pins : Pins) : Prop :=
      exec (.powerOnReset edge) s = .next { s with part := { s.part with pins := pins } }
    begins .falls { pins with resetn := false } ∧ begins .powersUp { pins with supply := false }
    ∧ (pins.supply = true → ∃ t, exec (.powerOnReset (.rises fast)) s = .next ⟨t, s.pending⟩
        ∧ fresh t ∧ t.pins = { pins with resetn := true, ratesel := fast } ∧ t.fast = fast ∧ t.started = true
        ∧ (∀ p, t.port p = ⟨.idle, false, [], none, 0, false⟩) ∧ t.pinLevels = t.outputs)
    ∧ (pins.supply = false → moves (.rises fast) { pins with resetn := true, ratesel := fast })
    ∧ moves .supplyValid { pins with supply := true }

/-- The laws that the manual says hold in every state of the part hold after power-on reset. -/
def Obligations.ResetMeetsEveryLaw : Prop :=
  State.reset.part.ServiceLaw ∧ State.reset.part.PortLaw ∧ State.reset.part.steam.Law ∧ State.reset.part.TripLaw
    ∧ State.reset.part.ArmingLaw ∧ State.reset.part.LowwLaw ∧ State.reset.part.CompressorLaw
    ∧ State.reset.part.DamperLaw ∧ State.reset.part.BudgetLaw ∧ State.reset.part.ValveLaw
    ∧ State.reset.part.GrantLaw ∧ State.reset.part.HeatLaw

/-! ## Serial ports and requests (chapter 1) -/

/-- HEADER_RECEIVED and MARKER_0_CHARACTER (R4, R13, R14): a header starts a new message, a message in assembly is
abandoned and counted, a DOWN link is UP, and on a bay port that raises LINK; a stray character is dropped, and in
assembly it is the length, then an argument byte while fewer than "length" bytes have arrived, each added to the
running sum. While a break lasts nothing is received (R12; log entry 7). -/
def Obligations.HeaderAndCharactersFillTheAssembly : Prop :=
  ∀ (s : State) (p : Port) (code x : Byte), let port := s.part.port p
    (port.inBreak = true → exec (.headerReceived p code) s = .next s ∧ exec (.marker0Character p x) s = .next s)
    ∧ (port.inBreak = false → exec (.headerReceived p code) s = .next { s with
        part := { s.part with
          ports := s.part.ports.set p { port with rx := .assembling code none [] code, linkUp := true }
          counters :=
            if port.rx = .idle then s.part.counters
            else { s.part.counters with
              frameErrors := s.part.counters.frameErrors.set p (s.part.counters.frameErrors.get p + 1) }
          notices :=
            if p ≠ .sp ∧ port.linkUp = false then
              s.part.notices.set .sp { s.part.notice .sp with flags := (s.part.notice .sp).flags ||| 0x08 }
            else s.part.notices } })
    ∧ (port.rx = .idle → exec (.marker0Character p x) s = .next s)
    ∧ (∀ c args sum, port.inBreak = false → port.rx = .assembling c none args sum → x.toNat ≤ 24 →
        exec (.marker0Character p x) s = .next { s with
          part := s.part.setPort p { port with rx := .assembling c (some x.toNat) args (sum + x) } })
    ∧ (∀ c n args sum, port.inBreak = false → port.rx = .assembling c (some n) args sum → args.length < n →
        exec (.marker0Character p x) s = .next { s with
          part := s.part.setPort p { port with rx := .assembling c (some n) (args ++ [x]) (sum + x) } })

/-- LENGTH_ABOVE_24, MESSAGE_COMPLETE with a failing check byte, CHARACTER_FRAMING_ERROR and GAP_TIMEOUT (R2, R3, R4, R5,
R7, R8): the message is discarded, a frame error is counted, and its FRAME entry is dropped as an overrun behind two
entries, waits behind the reply being sent, or is answered at once. A framing error outside a message only counts. A gap
outside a message changes nothing (DESIGN CHOICE, log entry 4), and so does a framing error during a break (DEDUCED, log
entry 7). -/
def Obligations.FaultyMessagesBecomeFrameEntries : Prop :=
  ∀ (s : State) (p : Port) (code : Byte) (c : Instr), (s.part.port p).Law →
    let x := { s.part.port p with rx := .idle }
    let u := s.part.countFrameError p
    ((s.part.port p).Discards p code c →
      exec c s = .next ⟨if 2 ≤ x.buffer.length then (u.setPort p x).countOverrun p
        else if x.tx.isSome then u.setPort p { x with buffer := x.buffer ++ [.frame code] }
        else u.setPort p { x with tx := some ⟨code, .frame, []⟩, txLeft := 440 }, s.pending⟩)
    ∧ ((s.part.port p).rx = .idle →
        exec (.gapTimeout p) s = .next s
        ∧ exec (.characterFramingError p) s = .next
            (if (s.part.port p).inBreak then s else { s with part := s.part.countFrameError p }))

/-- MESSAGE_COMPLETE with a passing check byte (R3, R4, R7, R8, R9): the request is dropped as an overrun behind two
entries, waits behind the reply being sent, or is taken at once; a code assigned to no request is answered UNKNOWN, and a
MAN_DRIVE whose length, selector or value code is none of R182's is answered ARGS on the service port (R181) and DENIED
on a bay port (R10). -/
def Obligations.PassingMessagesBecomeRequests : Prop :=
  ∀ (s : State) (p : Port) (k code : Byte) (n : Nat) (args : List Byte) (sum : Byte),
    (s.part.port p).Law → (s.part.port p).inBreak = false →
    (s.part.port p).rx = .assembling code (some n) args sum → args.length = n → sum + k = 0 →
    let x := { s.part.port p with rx := .idle }
    (2 ≤ x.buffer.length →
      exec (.messageComplete p k) s = .next { s with part := (s.part.setPort p x).countOverrun p })
    ∧ (x.buffer.length < 2 → x.tx.isSome = true → exec (.messageComplete p k) s =
        .next { s with part := s.part.setPort p { x with buffer := x.buffer ++ [.request code args] } })
    ∧ (x.tx = none → unassigned code → exec (.messageComplete p k) s = .next { s with
        part := s.part.setPort p { x with tx := some ⟨code, .unknown, []⟩, txLeft := 440 } })
    ∧ (x.tx = none → code = 0x45 → noDrive args → exec (.messageComplete p k) s = .next { s with
        part := s.part.setPort p
          { x with tx := some ⟨code, if p = .sp then .args else .denied, []⟩, txLeft := 440 } })
    ∧ (∀ i r, x.tx = none → requestOf i = some (p, r, args) → r.code = code →
        exec (.messageComplete p k) s = exec i { s with part := s.part.setPort p x })

/-- A request sent character by character to an idle port does exactly what the request command does: header, length,
arguments and check byte are assembled, checked and taken without a bit of them lost (R3, R4, R8). -/
def Obligations.AMessageSentIsTheRequestTaken : Prop :=
  ∀ (s : Part) (i : Instr) (p : Port) (r : Request) (args : List Byte) (rest : List Instr),
    requestOf i = some (p, r, args) → args.length ≤ 24 →
    (s.port p).rx = .idle → (s.port p).inBreak = false → (s.port p).linkUp = true →
    (s.port p).buffer = [] → (s.port p).tx = none →
    Host.Core.run core (args.length + 3)
        ⟨s, .headerReceived p r.code :: ((byteOf args.length :: args).map (.marker0Character p)
              ++ [.messageComplete p (requestCheck r.code args)]) ++ rest⟩
      = exec i ⟨s, rest⟩

/-- BREAK (R12, R39, R46, R68, R92, R121, R135, R171): the assembly and the buffer are emptied and the link is DOWN; a
bay port whose link was UP has its bay's records, demand, grants, closure, notices and heat taken away, and raises LINK.
Outside plant MANUAL the arbiters take the withdrawal of the demand as any other (`Part.DemandWithdrawn`: R113, R119,
R130, R133; log entries 8, 11 and 27); in MANUAL no bay has one. -/
def Obligations.BreakEndsTheLink : Prop :=
  ∀ (s : State) (p : Port),
    let x := { s.part.port p with rx := .idle, buffer := [], inBreak := true, linkUp := false }
    ((p = .sp ∨ (s.part.port p).linkUp = false) →
      exec (.breakDetected p) s = .next { s with part := s.part.setPort p x })
    ∧ (∀ b, p = .bp b → (s.part.port p).linkUp = true → s.part.ServiceLaw →
        ∃ t, exec (.breakDetected p) s = .next ⟨t, s.pending⟩
          ∧ t.port p = x ∧ (∀ q, q ≠ p → t.port q = s.part.port q)
          ∧ s.part.SameElsewhere t b ∧ t.store.get b = ⟨[], 0⟩
          ∧ t.runner b = ⟨.idle, ⟨false, true, (s.part.runner b).causes.plant⟩, false, .none, 0, false⟩
          ∧ t.claimsNothing b ∧ t.steam.holder ≠ .manual b ∧ t.air.damperOpen b = false
          ∧ (s.part.mode ≠ .manual → ∃ u, s.part.DemandWithdrawn u b ∧ t.boiler = u.boiler ∧ t.steam = u.steam
              ∧ t.air = { u.air with marks := u.air.marks.set b false } ∧ t.comp = u.comp)
          ∧ (t.load (.bay b)).request = 0 ∧ (t.load (.bay b)).grant = 0
          ∧ (s.part.mode = .manual → (t.load (.bay b)).manual = some 0)
          ∧ t.notice (.bp b) = ⟨0, 0x1F⟩ ∧ t.notedSp .link ∧ t.counters.bays = s.part.counters.bays)

/-- REPLY_END, FRAME_REPLY and RX_RETURNS_HIGH_AFTER_BREAK (R8, R9, R12): the transmitter is IDLE again, or takes the next
entry: a FRAME entry is answered FRAME, a request is taken, an unassigned code is answered UNKNOWN, and a MAN_DRIVE whose
length, selector or value code is none of R182's is answered ARGS on the service port (R181) and DENIED on a bay port
(R10). A FRAME entry or a request that comes while a reply is being sent takes its place behind the entries that wait, or
is dropped as an overrun (R7; the command is the entry's arrival: DESIGN CHOICE, log entry 1). An end of a reply that is
not being sent changes nothing (DESIGN CHOICE, log entry 4). During a power-on reset nothing is received, whatever RX does
(R15). -/
def Obligations.AReplyEndTakesTheNextEntry : Prop :=
  ∀ (s : State) (p : Port), let x := s.part.port p
    (x.tx = none → exec (.replyEnd p) s = .next s)
    ∧ (x.tx.isSome = true → x.buffer = [] → exec (.replyEnd p) s = .next { s with
        part := s.part.setPort p { x with tx := none, txLeft := 0 } })
    ∧ (∀ code rest, x.tx.isSome = true → x.buffer = .frame code :: rest → exec (.replyEnd p) s = .next { s with
        part := s.part.setPort p { x with buffer := rest, tx := some ⟨code, .frame, []⟩, txLeft := 440 } })
    ∧ (∀ code args rest, x.tx.isSome = true → x.buffer = .request code args :: rest → unassigned code →
        exec (.replyEnd p) s = .next { s with
          part := s.part.setPort p { x with buffer := rest, tx := some ⟨code, .unknown, []⟩, txLeft := 440 } })
    ∧ (∀ i r args rest, x.tx.isSome = true → requestOf i = some (p, r, args) →
        x.buffer = .request r.code args :: rest → exec (.replyEnd p) s =
          exec i { s with part := s.part.setPort p { x with buffer := rest, tx := none, txLeft := 0 } })
    ∧ (∀ args rest, x.tx.isSome = true → x.buffer = .request 0x45 args :: rest → noDrive args →
        exec (.replyEnd p) s = .next { s with
          part := s.part.setPort p { x with
            buffer := rest, tx := some ⟨0x45, if p = .sp then .args else .denied, []⟩, txLeft := 440 } })
    ∧ (∀ code, x.tx = none → exec (.frameReply p code) s = .next { s with
        part := s.part.setPort p { x with tx := some ⟨code, .frame, []⟩, txLeft := 440 } })
    ∧ (∀ i e, x.tx.isSome = true → ((∃ code, i = .frameReply p code ∧ e = .frame code)
          ∨ ∃ r args, requestOf i = some (p, r, args) ∧ e = .request r.code args) →
        exec i s = .next ⟨if 2 ≤ x.buffer.length then s.part.countOverrun p
          else s.part.setPort p { x with buffer := x.buffer ++ [e] }, s.pending⟩)
    ∧ (let held : Prop := s.part.pins.resetn = false ∨ s.part.pins.supply = false ∨ s.part.started = false
       (¬ held → exec (.rxReturnsHigh p) s = .next { s with part := s.part.setPort p { x with inBreak := false } })
       ∧ (held → exec (.rxReturnsHigh p) s = .next { s with part := s.part.setPort p { x with inBreak := true } }))

/-- The port checks and the argument lengths (R9, R10, R47): a request refused with any result but OK leaves the part as
it was; the service port answers UNKNOWN to the requests of the bays alone, a bay port DENIED to those of the service
port; and a wrong argument length is answered ARGS. -/
def Obligations.RefusedRequestsHaveNoEffect : Prop :=
  ∀ (s : State) (i : Instr) (p : Port) (r : Request) (args : List Byte), requestOf i = some (p, r, args) →
    (s.part.port p).tx = none →
    (∃ t res data, exec i s = .next ⟨t.send p ⟨r.code, res, data⟩, s.pending⟩
      ∧ (res ≠ .ok → t = s.part ∧ data = []))
    ∧ (p = .sp → r.code ∈ [0x11, 0x12, 0x13, 0x21, 0x22, 0x23, 0x24, 0x25, 0x26] →
        Answers i s p ⟨r.code, .unknown, []⟩)
    ∧ (p ≠ .sp → r.code ∈ [0x27, 0x41, 0x42, 0x43, 0x44, 0x45, 0x46, 0x51, 0x52, 0x53, 0x54, 0x55, 0x56, 0x57] →
        Answers i s p ⟨r.code, .denied, []⟩)
    ∧ (p ≠ .sp → r.code ∈ [0x13, 0x21, 0x22, 0x23, 0x25, 0x31, 0x32, 0x38] → args ≠ [] →
        Answers i s p ⟨r.code, .args, []⟩)
    ∧ (p ≠ .sp → r.code ∈ [0x12, 0x24, 0x26, 0x39, 0x3A] → args.length ≠ 1 → Answers i s p ⟨r.code, .args, []⟩)
    ∧ (p = .sp → r.code ∈ [0x32, 0x38, 0x41, 0x42, 0x43, 0x44, 0x46, 0x57] → args ≠ [] →
        Answers i s p ⟨r.code, .args, []⟩)
    ∧ (p = .sp → r.code ∈ [0x27, 0x31, 0x39, 0x3A, 0x53, 0x54, 0x55, 0x56] → args.length ≠ 1 →
        Answers i s p ⟨r.code, .args, []⟩)
    ∧ (p = .sp → r.code ∈ [0x51, 0x52] → args.length = 0 ∨ args.length % 3 ≠ 0 → Answers i s p ⟨r.code, .args, []⟩)

/-- Every request taken is answered on its port with its own code (R6, R8): the characters of the reply are the code, the
result (00h OK, 01h FRAME, 02h UNKNOWN, 03h ARGS, 04h STATE, 05h NO_SLOT, 06h DENIED, 07h TRIPPED), the length, the data
and the check byte, which sum to 0 modulo 256; it holds at most 52 of them, and it is sent at 11 bit times a character. TX
carries each character as a low start bit, the eight data bits with the least significant first, the marker and a high
stop bit, back to back, and is high with nothing to send (R1). -/
def Obligations.RepliesSumToZero : Prop :=
  ∀ (s : State) (i : Instr) (p : Port) (r : Request) (args : List Byte), requestOf i = some (p, r, args) →
    (s.part.port p).tx = none →
    let result : Result → Byte
      | .ok => 0x00
      | .frame => 0x01
      | .unknown => 0x02
      | .args => 0x03
      | .state => 0x04
      | .noSlot => 0x05
      | .denied => 0x06
      | .tripped => 0x07
    ∃ t reply, exec i s = .next ⟨t, s.pending⟩ ∧ (t.port p).tx = some reply ∧ reply.code = r.code
      ∧ reply.characters.map Prod.snd =
          [reply.code, result reply.result, byteOf reply.data.length] ++ reply.data ++ [reply.check]
      ∧ (reply.characters.map Prod.snd).foldl (· + ·) 0 = 0 ∧ reply.characters.length ≤ 52
      ∧ (t.port p).txLeft = reply.characters.length * 110
      ∧ reply.characters.map Prod.fst = true :: List.replicate (reply.data.length + 3) false
      ∧ (reply.result ≠ .ok → reply.data = [])
      ∧ (t.outputs.tx.get p = false ∧ (s.part.outputs.tx.get p = true))
      ∧ ∀ k c n, reply.characters[k]? = some c → n < 11 →
          ({ t.port p with txLeft := (t.port p).txLeft - (k * 110 + n * 10) } : PortState).txLevel
            = if n = 0 then false else if n ≤ 8 then c.2.getLsbD (n - 1) else if n = 9 then c.1 else true

/-! ## The Phase Store (chapter 2) -/

/-- APPEND (R26, R29 to R31): arguments that are not an APPEND are refused ARGS, a full pool or list NO_SLOT; otherwise
the record joins the tail of the list as PENDING with the first tag from the counter on that no record holds, and the
reply gives the tag, the clamped set and the free slots. -/
def Obligations.AppendAddsAPendingRecord : Prop :=
  ∀ (s : State) (b : Bay) (args : List Byte), (s.part.port (.bp b)).tx = none →
    (appendBody args = none → Answers (.append (.bp b) args) s (.bp b) ⟨0x11, .args, []⟩)
    ∧ ∀ (notify hold : Bool) (body : Body) (mask : Byte), appendBody args = some ((notify, hold), body, mask) →
      (48 ≤ s.part.slotsUsed ∨ 20 ≤ (s.part.list b).length →
        Answers (.append (.bp b) args) s (.bp b) ⟨0x11, .noSlot, []⟩)
      ∧ (s.part.slotsUsed < 48 → (s.part.list b).length < 20 → ∃ tag : Byte,
          (∀ r ∈ s.part.list b, r.tag ≠ tag)
          ∧ (∀ k < (tag - (s.part.store.get b).nextTag).toNat,
              ∃ r ∈ s.part.list b, r.tag = (s.part.store.get b).nextTag + BitVec.ofNat 8 k)
          ∧ exec (.append (.bp b) args) s = .next ⟨({ s.part with
              store := s.part.store.set b
                ⟨s.part.list b ++ [(⟨tag, notify, hold, body, .pending, 0, 0, 0, 0⟩ : Record)], tag + 1⟩ }).send (.bp b)
              ⟨0x11, .ok, [tag, mask, byteOf (47 - s.part.slotsUsed)]⟩, s.pending⟩)

/-- The arguments of APPEND (R17, R18, R29): a wrong length, kind or flag byte is refused ARGS; every parameter becomes
the nearest value of its range, and the mask of the clamped ones is returned. -/
def Obligations.AppendReadsItsArguments : Prop :=
  ∀ (f a b c d e g h i j : Byte), let le (x y : Byte) : Nat := x.toNat + 256 * y.toNat
    let les (x y : Byte) : Int := (y ++ x).toInt
    let clamp (lo hi : Int) (x : Int) : Nat := (max lo (min hi x)).toNat
    let out (lo hi : Int) (x : Int) (bit : Byte) : Byte := if lo ≤ x ∧ x ≤ hi then 0 else bit
    let fl := (f.getLsbD 0, f.getLsbD 1)
    (f &&& 0xFC ≠ 0 → ∀ kind rest, appendBody (kind :: f :: rest) = none)
    ∧ (∀ kind rest, kind ∉ [0x01, 0x02, 0x03, 0x04] → appendBody (kind :: f :: rest) = none)
    ∧ (∀ rest, rest.length ≠ 4 → appendBody (0x01 :: f :: rest) = none ∧ appendBody (0x02 :: f :: rest) = none)
    ∧ (∀ rest, rest.length ≠ 9 → appendBody (0x03 :: f :: rest) = none)
    ∧ (∀ rest, rest.length ≠ 2 → appendBody (0x04 :: f :: rest) = none)
    ∧ (∀ args, args.length < 2 → appendBody args = none)
    ∧ (f &&& 0xFC = 0 →
      appendBody [0x01, f, a, b, c, d] = some (fl, .steam (clamp 1 2000 (le a b)) (clamp 30 3600 (le c d)) 0,
        out 1 2000 (le a b) 0x01 ||| out 30 3600 (le c d) 0x02)
      ∧ appendBody [0x02, f, a, b, c, d] = some (fl, .dry (clamp 350 700 (les a b)) (clamp 60 7200 (le c d)) 0,
        out 350 700 (les a b) 0x01 ||| out 60 7200 (le c d) 0x02)
      ∧ appendBody [0x03, f, a, b, c, d, e, g, h, i, j] =
        some (fl, .refresh (clamp 1 500 (le a b)) (clamp 1 8 c.toNat) (clamp 30 900 (le d e))
          (clamp 350 700 (les g h)) (clamp 60 10800 (le i j)) 0 0 0,
          out 1 500 (le a b) 0x01 ||| out 1 8 c.toNat 0x02 ||| out 30 900 (le d e) 0x04 ||| out 350 700 (les g h) 0x08
            ||| out 60 10800 (le i j) 0x10)
      ∧ appendBody [0x04, f, a, b] = some (fl, .rest (clamp 1 3600 (le a b)), out 1 3600 (le a b) 0x01))

/-- WITHDRAW and COLLECT (R32, R33, section 10.4): WITHDRAW removes the PENDING record it names and nothing else, and is
refused STATE otherwise; COLLECT removes the head of the list where it is DONE and returns it, with its kind and outcome
in the codes of section 10.3, and is answered OK with no data otherwise. -/
def Obligations.WithdrawAndCollectRemoveARecord : Prop :=
  ∀ (s : State) (b : Bay), (s.part.port (.bp b)).tx = none →
    let kind : Body → Byte
      | .steam .. => 0x01
      | .dry .. => 0x02
      | .refresh .. => 0x03
      | .rest .. => 0x04
    let outcome : RecordEnd → Byte
      | .complete => 0x01
      | .short => 0x02
      | .cut => 0x03
      | .aborted => 0x04
      | .notRun => 0x05
      | .restarted => 0x06
    (∀ tag, (∀ r ∈ s.part.list b, ¬ (r.tag = tag ∧ r.isPending = true)) →
      Answers (.withdraw (.bp b) [tag]) s (.bp b) ⟨0x12, .state, []⟩)
    ∧ (∀ tag pre r post, s.part.StoreLaw → s.part.list b = pre ++ r :: post → r.tag = tag → r.isPending = true →
      exec (.withdraw (.bp b) [tag]) s = .next
        ⟨(s.part.setList b (pre ++ post)).send (.bp b) ⟨0x12, .ok, []⟩, s.pending⟩)
    ∧ ((∀ r ∈ (s.part.list b).head?, r.isDone = false) →
        Answers (.collect (.bp b) []) s (.bp b) ⟨0x13, .ok, []⟩)
    ∧ (∀ r o rest, s.part.list b = r :: rest → r.phase = .done o →
        exec (.collect (.bp b) []) s = .next ⟨(s.part.setList b rest).send (.bp b) ⟨0x13, .ok,
          [r.tag, kind r.body, maskByte [r.notify, r.holdAfter], outcome o]
            ++ (match r.body with
                | .steam dose limit _ => le16 dose ++ le16 limit
                | .dry temp duration _ => le16 temp ++ le16 duration
                | .refresh g n a t l _ _ _ => le16 g ++ [byteOf n] ++ le16 a ++ le16 t ++ le16 l
                | .rest duration => le16 duration)
            ++ le16 r.activeS ++ le16 r.servedS ++ le16 r.pausedS ++ le16 r.starvedS
            ++ (match r.body with
                | .steam _ _ mg => le32 mg
                | .dry _ _ wh => le16 wh
                | .refresh _ _ _ _ _ mg n wh => le32 mg ++ [byteOf n] ++ le16 wh
                | .rest _ => [])
            ++ [byteOf (rest.countP Record.isDone)]⟩, s.pending⟩)

/-! ## Bay runners (chapter 3) -/

/-- RUN_START (R35, R44, R48, R64, R65): an IDLE runner takes the first PENDING record and is RUNNING, with that
record's demand placed, or PAUSED where its cause set is not empty; with nothing pending, or in another state, it is
refused STATE. A demand placed joins the tail of its queue, a STEAM demand to an empty queue wakes a KEEPWARM boiler
(R101), and the grant test follows (R113 to R115, R117, R130, R131, R137): `Part.DemandPlaced`. -/
def Obligations.RunStartTakesTheFirstRecord : Prop :=
  ∀ (s : State) (b : Bay), (s.part.port (.bp b)).tx = none → s.part.ServiceLaw → let r := s.part.runner b
    ((r.state ≠ .idle ∨ countPending (s.part.list b) = 0) →
      Answers (.runStart (.bp b) []) s (.bp b) ⟨0x21, .state, []⟩)
    ∧ (r.state = .idle → 0 < countPending (s.part.list b) →
        ∃ t, exec (.runStart (.bp b) []) s = .next ⟨t, s.pending⟩
          ∧ s.part.Replied t (.bp b) ⟨0x21, .ok, []⟩ ∧ s.part.SameElsewhere t b
          ∧ TakesFirstPending (s.part.list b) (t.list b)
          ∧ (t.store.get b).nextTag = (s.part.store.get b).nextTag ∧ t.counters.bays = s.part.counters.bays
          ∧ (r.causes.empty = false → t.runner b = { r with state := .paused, unserved := 0, alert := false }
              ∧ t.steam = s.part.steam ∧ t.air = s.part.air ∧ t.table = s.part.table)
          ∧ (r.causes.empty = true →
              t.runner b = { r with
                state := .running, demand := demandFor (t.current b), unserved := 0, alert := false }
              ∧ ((t.runner b).demand = .steam ↔ t.claimsSteam b)
              ∧ ((∃ x, (t.runner b).demand = .air x) ↔ t.claimsAir b))
          ∧ s.part.DemandPlaced t b)

/-- RUN_PAUSE and RUN_RESUME (R44, R49, R50): REQUEST joins or leaves the cause set; a RUNNING runner pauses with its
demand withdrawn, and a runner that no cause holds any longer runs with it placed; RUN_RESUME from HELD takes the next
record, or ends the programme where none is pending. The arbiters take the demand withdrawn out of queue, manifold or
holder set (`Part.DemandWithdrawn`: R113, R119, R130, R133; log entries 8, 11 and 27), and a demand placed at the tail
of its queue with the grant test after it (`Part.DemandPlaced`: R101, R113, R114, R130, R131). The boiler is MANUAL in
plant MANUAL alone (`Part.ServiceLaw`), so no allocation here arms LOWW. -/
def Obligations.RunPauseAndResume : Prop :=
  ∀ (s : State) (b : Bay), (s.part.port (.bp b)).tx = none → s.part.ServiceLaw → let r := s.part.runner b
    ((r.state = .idle ∨ r.state = .held) → Answers (.runPause (.bp b) []) s (.bp b) ⟨0x22, .state, []⟩)
    ∧ ((r.state = .running ∨ r.state = .paused) →
        ∃ t, exec (.runPause (.bp b) []) s = .next ⟨t, s.pending⟩
          ∧ s.part.Replied t (.bp b) ⟨0x22, .ok, []⟩ ∧ s.part.SameElsewhere t b ∧ t.store = s.part.store
          ∧ t.runner b = { r with state := .paused, causes := { r.causes with request := true }, demand := .none }
          ∧ t.claimsNothing b ∧ t.notices.bays = s.part.notices.bays ∧ s.part.DemandWithdrawn t b)
    ∧ ((r.state = .running ∨ r.state = .idle ∨ r.state = .paused ∧ r.causes.request = false) →
        Answers (.runResume (.bp b) []) s (.bp b) ⟨0x23, .state, []⟩)
    ∧ ((r.state = .paused ∧ r.causes.request = true ∨ r.state = .held) →
        ∃ t, exec (.runResume (.bp b) []) s = .next ⟨t, s.pending⟩
          ∧ s.part.Replied t (.bp b) ⟨0x23, .ok, []⟩ ∧ s.part.SameElsewhere t b
          ∧ (t.runner b).causes = { r.causes with request := false } ∧ (t.runner b).shut = r.shut
          ∧ s.part.DemandPlaced t b
          ∧ (r.state = .paused → t.store = s.part.store ∧ (t.runner b).unserved = r.unserved
              ∧ (t.runner b).alert = r.alert)
          ∧ (r.state = .held → 0 < countPending (s.part.list b) → TakesFirstPending (s.part.list b) (t.list b)
              ∧ (t.runner b).unserved = 0 ∧ (t.runner b).alert = false)
          ∧ (r.state = .held → countPending (s.part.list b) = 0 → t.store = s.part.store
              ∧ (t.runner b).state = .idle ∧ (t.runner b).unserved = 0 ∧ t.noted b .ended)
          ∧ (r.state = .paused ∨ 0 < countPending (s.part.list b) →
              (t.runner b).state = (if (t.runner b).causes.empty then .running else .paused)
              ∧ (t.runner b).demand = (if (t.runner b).causes.empty then demandFor (t.current b) else .none)
              ∧ ((t.runner b).demand = .steam ↔ t.claimsSteam b)))

/-- RUN_FINISH (R51, R54): the current record that the tag names ends CUT and the runner moves on as after any ending,
its old demand withdrawn and then a next record's placed, at the tail of its queue with the grant test after it (R65,
`Part.Redemanded`; log entries 8, 11 and 27); any other tag, and a bay without a current record, is refused STATE. -/
def Obligations.RunFinishCutsTheCurrentRecord : Prop :=
  ∀ (s : State) (b : Bay) (tag : Byte), (s.part.port (.bp b)).tx = none → s.part.ServiceLaw →
    ((∀ r ∈ s.part.list b, r.isCurrent = true → r.tag ≠ tag) →
      Answers (.runFinish (.bp b) [tag]) s (.bp b) ⟨0x24, .state, []⟩)
    ∧ (∀ r ∈ s.part.list b, r.isCurrent = true → r.tag = tag →
        ∃ t, exec (.runFinish (.bp b) [tag]) s = .next ⟨t, s.pending⟩
          ∧ s.part.Replied t (.bp b) ⟨0x24, .ok, []⟩ ∧ s.part.SameElsewhere t b ∧ s.part.MovedOn b r .cut t
          ∧ s.part.Redemanded t b
          ∧ ((t.runner b).state ≠ .running → t.claimsNothing b) ∧ (t.runner b).shut = (s.part.runner b).shut)

/-- RUN_ABORT and BAY_ABORT (R37, R52, R53): both end a bay's whole programme in the same way: the current record is
ABORTED, every PENDING record NOT_RUN, each counted, the runner is IDLE with its demand withdrawn from the arbiters
(R65, `Part.DemandWithdrawn`; log entries 8, 11 and 27), and END is raised; an IDLE runner with nothing pending refuses
STATE. -/
def Obligations.AnAbortEndsTheProgramme : Prop :=
  ∀ (s : State) (b : Bay), (s.part.port .sp).tx = none → (s.part.port (.bp b)).tx = none →
    s.part.ServiceLaw →
    let idle := (s.part.runner b).state = .idle ∧ countPending (s.part.list b) = 0
    (idle → Answers (.runAbort (.bp b) []) s (.bp b) ⟨0x25, .state, []⟩
      ∧ Answers (.bayAbort .sp [byteOf (Bay.number b)]) s .sp ⟨0x27, .state, []⟩)
    ∧ (∀ x : Byte, x.toNat = 0 ∨ 4 < x.toNat → Answers (.bayAbort .sp [x]) s .sp ⟨0x27, .args, []⟩)
    ∧ (¬ idle → ∃ t, exec (.runAbort (.bp b) []) s = .next ⟨t.send (.bp b) ⟨0x25, .ok, []⟩, s.pending⟩
        ∧ exec (.bayAbort .sp [byteOf (Bay.number b)]) s = .next ⟨t.send .sp ⟨0x27, .ok, []⟩, s.pending⟩
        ∧ t.ports = s.part.ports ∧ s.part.SameElsewhere t b
        ∧ t.list b = (s.part.list b).map (fun r =>
            match r.phase with
            | .current _ => { r with phase := .done .aborted }
            | .pending => { r with phase := .done .notRun }
            | .done _ => r)
        ∧ (t.store.get b).nextTag = (s.part.store.get b).nextTag
        ∧ t.runner b = { s.part.runner b with
            state := .idle, causes := { (s.part.runner b).causes with request := false }, demand := .none
            unserved := 0, alert := false }
        ∧ t.claimsNothing b ∧ s.part.DemandWithdrawn t b ∧ t.noted b .ended
        ∧ (∀ r ∈ s.part.list b, r.isCurrent = true → r.notify = true → t.noted b .done)
        ∧ t.bayCounters b = { s.part.bayCounters b with
            cut := (s.part.bayCounters b).cut + BitVec.ofNat 32 ((s.part.list b).countP fun r => !r.isDone) })

/-- CLOSURE_REPORT (R43, R44, R46, R65, R121): OPEN adds CLOSURE, pauses a RUNNING runner and takes the manifold and the
queue from the bay in every plant mode, a holder, automatic or manual, leaving behind a purge (`Part.DemandWithdrawn`,
`Part.SteamReleased`; log entries 8, 11 and 27); SHUT removes CLOSURE and lets a runner with no other cause run again,
which rejoins its queue at the tail with the grant test after it (`Part.DemandPlaced`); a report of the state that
stands changes nothing, and any other value is refused ARGS. -/
def Obligations.ClosureReportOpensAndShuts : Prop :=
  ∀ (s : State) (b : Bay), (s.part.port (.bp b)).tx = none → s.part.ServiceLaw → let r := s.part.runner b
    (∀ x : Byte, x ≠ 0x00 → x ≠ 0x01 → Answers (.closureReport (.bp b) [x]) s (.bp b) ⟨0x26, .args, []⟩)
    ∧ (Answers (.closureReport (.bp b) [if r.shut then 0x01 else 0x00]) s (.bp b) ⟨0x26, .ok, []⟩)
    ∧ (r.shut = true → ∃ t, exec (.closureReport (.bp b) [0x00]) s = .next ⟨t, s.pending⟩
        ∧ s.part.Replied t (.bp b) ⟨0x26, .ok, []⟩ ∧ s.part.SameElsewhere t b ∧ t.store = s.part.store
        ∧ t.runner b = { r with
            state := r.state.whenPaused, causes := { r.causes with closure := true }, shut := false, demand := .none }
        ∧ t.claimsNothing b ∧ t.steam.holder ≠ .manual b ∧ t.steam.valveOpen b = false
        ∧ (s.part.steam.holder ≠ .manual b → s.part.DemandWithdrawn t b)
        ∧ (s.part.steam.holder = .manual b → s.part.SteamReleased s.part.steam.queue t.steam ∧ t.air = s.part.air
            ∧ t.comp = s.part.comp ∧ t.boiler = s.part.boiler ∧ t.mode = s.part.mode))
    ∧ (r.shut = false → ∃ t, exec (.closureReport (.bp b) [0x01]) s = .next ⟨t, s.pending⟩
        ∧ s.part.Replied t (.bp b) ⟨0x26, .ok, []⟩ ∧ s.part.SameElsewhere t b ∧ t.store = s.part.store
        ∧ (t.runner b).shut = true ∧ (t.runner b).causes = { r.causes with closure := false }
        ∧ (t.runner b).state = (if r.state = .paused ∧ (t.runner b).causes.empty then .running else r.state)
        ∧ (t.runner b).demand = (if (t.runner b).state = .running then demandFor (t.current b) else .none)
        ∧ ((t.runner b).demand = .steam ↔ t.claimsSteam b) ∧ s.part.DemandPlaced t b
        ∧ ((t.runner b).state = r.state → t.steam = s.part.steam ∧ t.air = s.part.air ∧ t.table = s.part.table))

/-- R56: at its second an IDLE or HELD runner does nothing; a PAUSED one counts one paused second of its current record,
up to 65,535, and nothing else changes: its unserved run and alert mark among them. -/
def Obligations.ARestingRunnerSecondCountsPausesAlone : Prop :=
  ∀ (s : State) (b : Bay), let clock := { s.part.clocks with runner := s.part.clocks.runner.set b 0 }
    ((s.part.runner b).state = .idle ∨ (s.part.runner b).state = .held →
      exec (.runnerSecond b) s = .next { s with part := { s.part with clocks := clock } })
    ∧ ((s.part.runner b).state = .paused →
      exec (.runnerSecond b) s = .next { s with part := { s.part with
        clocks := clock
        store := s.part.store.set b { s.part.store.get b with
          records := (s.part.list b).map fun r =>
            if r.isCurrent then { r with pausedS := min 65535 (r.pausedS + 1) } else r } } })

/-- The accounting of a RUNNING runner's second (R57, R58), where the record reaches none of its ends (R59 to R63): the
counts of the record, the unserved run, the starved-seconds counter, and STARVED where the run reaches the setting. -/
def Obligations.ARunningSecondIsAccounted : Prop :=
  ∀ (s : State) (b : Bay) (r : Record) (w : Work), s.part.ServiceLaw →
    (s.part.runner b).state = .running → s.part.current b = some (r, w) →
    let served := s.part.secondServed b r w
    let later := r.secondLater w served
    let x := s.part.runner b
    let run := if served then 0 else min 65535 (x.unserved + 1)
    let alerts : Bool := !served && !x.alert && s.part.live.starveAlert ≤ run
    let ends : Bool := match r.body with
      | .steam _ limit _ => limit ≤ later.activeS
      | .dry _ duration _ => duration ≤ later.servedS || 2 * duration ≤ later.activeS
      | .refresh _ _ airingS _ limit _ _ _ =>
        limit ≤ later.activeS || (w.sub = .airing && airingS ≤ r.airingLater w served)
      | .rest duration => duration ≤ later.activeS
    ends = false →
    exec (.runnerSecond b) s = .next { s with part := { s.part.secondStarts b with
      store := s.part.store.set b { s.part.store.get b with records := withCurrent (s.part.list b) later }
      runners := s.part.runners.set b { x with unserved := run, alert := !served && (x.alert || alerts) }
      counters := { s.part.counters with
        bays := s.part.counters.bays.set b { s.part.bayCounters b with
          starved := (s.part.bayCounters b).starved + (if served then 0 else 1) } }
      notices := if alerts then
          s.part.notices.set (.bp b) { s.part.notice (.bp b) with flags := (s.part.notice (.bp b)).flags ||| 0x08 }
        else s.part.notices } }

/-- The endings at a RUNNING runner's second (R59 to R63): COMPLETE where the kind's end is reached, SHORT at the limit
of a record that does not complete, and the return of a REFRESH record to BURST between its bursts, in which the airing
count keeps its value (DEDUCED, log entry 25). Each withdraws the old demand and then places that of the next record or
sub-step, at the tail of its queue with the grant test after it (R65, `Part.Redemanded`; log entries 8, 11 and 27); a
return to BURST that the limit ends in the same event (R62) does so twice. -/
def Obligations.ARunningSecondEndsRecords : Prop :=
  ∀ (s : State) (b : Bay) (r : Record) (w : Work), s.part.ServiceLaw →
    (s.part.runner b).state = .running → s.part.current b = some (r, w) →
    let later := r.secondLater w (s.part.secondServed b r w)
    let airing := r.airingLater w (s.part.secondServed b r w)
    let u := (s.part.secondStarts b).setList b (withCurrent (s.part.list b) later)
    ∃ t, exec (.runnerSecond b) s = .next ⟨t, s.pending⟩ ∧ t.ports = s.part.ports ∧ u.SameElsewhere t b
      ∧ (match r.body with
        | .steam _ limit _ => limit ≤ later.activeS → u.MovedOn b later .short t ∧ u.Redemanded t b
        | .rest duration => duration ≤ later.activeS → u.MovedOn b later .complete t ∧ u.Redemanded t b
        | .dry _ duration _ =>
          (duration ≤ later.servedS → u.MovedOn b later .complete t ∧ u.Redemanded t b)
          ∧ (later.servedS < duration → 2 * duration ≤ later.activeS → u.MovedOn b later .short t ∧ u.Redemanded t b)
        | .refresh _ bursts airingS _ limit _ done _ =>
          (w.sub = .airing → airingS ≤ airing → bursts ≤ done → u.MovedOn b later .complete t ∧ u.Redemanded t b)
          ∧ (w.sub = .burst ∨ airing < airingS ∨ done < bursts → limit ≤ later.activeS → u.MovedOn b later .short t)
          ∧ (w.sub = .burst ∨ airing < airingS → limit ≤ later.activeS → u.Redemanded t b)
          ∧ (w.sub = .airing → airingS ≤ airing → done < bursts → limit ≤ later.activeS →
              ∃ v, (v.runner b).demand = .steam ∧ u.Redemanded v b ∧ v.Redemanded t b)
          ∧ (w.sub = .airing → airingS ≤ airing → done < bursts → later.activeS < limit → u.Redemanded t b ∧
              t.list b = withCurrent (s.part.list b)
                { later with phase := .current { w with sub := .burst, airing := airing, burstMg := 0, steamCarry := 0 } }
              ∧ (t.runner b).state = .running ∧ (t.runner b).demand = .steam ∧ t.claimsSteam b ∧ ¬ t.claimsAir b))

/-! ## Reports and notices (chapters 8 and 9) -/

/-- BAY_QUERY (R193, section 10.5): the 48 bytes of the report in the codes of section 10.3, on the bay's own port and
on the service port, and nothing of the part changes but the reply being sent; a bay number outside 1 to 4 is refused
ARGS. Bytes 33 and 34 of a record in BURST give the count of its last airing (DEDUCED, log entry 25), and byte 36 is
the state of the manifold beside its holder, automatic or manual, and 0 for any other bay (R128, R194; DEDUCED, log
entry 28). -/
def Obligations.BayQueryReportsTheBay : Prop :=
  ∀ (s : State) (b : Bay), (s.part.port .sp).tx = none → (s.part.port (.bp b)).tx = none →
    let p := s.part
    let r := p.runner b
    let e := p.load (.bay b)
    let state : Byte := match r.state with
      | .idle => 0x00
      | .running => 0x01
      | .paused => 0x02
      | .held => 0x03
    let demand : Byte := match r.demand with
      | .none => 0x00
      | .steam => 0x01
      | .air _ => 0x02
    let kind : Body → Byte
      | .steam .. => 0x01
      | .dry .. => 0x02
      | .refresh .. => 0x03
      | .rest .. => 0x04
    let sub (x : Body) (w : Work) : Byte := match x, w.sub with
      | .refresh .., .burst => 0x01
      | .refresh .., .airing => 0x02
      | _, _ => 0x00
    let manifold : Byte := if p.steam.holder = .auto b ∨ p.steam.holder = .manual b then
        match p.steam.manifold with
        | .free => 0x00
        | .purge => 0x01
        | .open => 0x02
        | .stalled => 0x03
      else 0x00
    let target : Nat := match r.demand with
      | .air t => t
      | _ => 0
    let place (q : List Bay) : Byte := if b ∈ q then byteOf (q.idxOf b + 1) else 0
    let steamAt : Byte :=
      if p.steam.holder = .auto b then 0x10 else if p.steam.holder = .manual b then 0x11 else place p.steam.queue
    let hold : Option AirHolder := p.air.holders.find? fun h => h.bay = b
    let record : List Byte := match p.current b with
      | none => List.replicate 24 0
      | some (r, w) =>
        [r.tag, kind r.body, sub r.body w]
          ++ le16 r.activeS ++ le16 r.servedS ++ le16 r.pausedS ++ le16 r.starvedS
          ++ le32 r.body.steamMg ++ [byteOf r.body.burstsDone] ++ le16 r.body.heatWh
          ++ le32 (if r.body.isRefresh then w.burstMg else 0) ++ le16 (if r.body.isRefresh then w.airing else 0)
    let data : List Byte :=
      [state, maskByte [r.causes.request, r.causes.closure, r.causes.plant],
        maskByte [r.shut, p.air.damperOpen b, (p.loop b).fault, e.clipped, (p.current b).isSome], demand]
      ++ le16 target ++ le16 r.unserved
      ++ [byteOf ((p.list b).countP Record.isDone), byteOf ((p.list b).countP Record.isPending),
          byteOf (48 - p.slotsUsed)]
      ++ record ++ [steamAt, manifold, if hold.isSome then 0x10 else place p.air.queue]
      ++ le16 ((hold.map fun h => h.heldMs / 1000).getD 0) ++ le16 ((hold.map AirHolder.lengthS).getD 0)
      ++ le16s (p.loop b).tAir ++ le16 e.grant ++ le16 e.duty
    data.length = 48
    ∧ Answers (.bayQuery (.bp b) []) s (.bp b) ⟨0x31, .ok, data⟩
    ∧ Answers (.bayQuery .sp [byteOf (Bay.number b)]) s .sp ⟨0x31, .ok, data⟩
    ∧ (∀ x : Byte, x.toNat = 0 ∨ 4 < x.toNat → Answers (.bayQuery .sp [x]) s .sp ⟨0x31, .args, []⟩)

/-- PLANT_QUERY (R192) and LEDGER_READ (R95, R191): their replies, byte by byte as section 10.5 lays them out in the
codes of section 10.3, with no other change of the part; a part selector above 2 is refused ARGS. -/
def Obligations.PlantQueryAndLedgerRead : Prop :=
  ∀ (s : State) (q : Port), (s.part.port q).tx = none → (s.part.port .sp).tx = none →
    let p := s.part
    let t := p.table
    let bays (bs : List Bay) : List Byte :=
      byteOf bs.length :: ((bs.map fun b => byteOf (Bay.number b)) ++ List.replicate 4 0).take 4
    let on (i : TripInput) : Bool := (p.trips.inputs.get i).active
    let mode : Byte := match p.mode with
      | .offline => 0x00
      | .starting => 0x01
      | .online => 0x02
      | .manualPending => 0x03
      | .manual => 0x04
    let boiler : Byte := match p.boiler.state with
      | .cold => 0x00
      | .filling => 0x01
      | .heating => 0x02
      | .ready => 0x03
      | .keepwarm => 0x04
      | .locked => 0x05
      | .manual => 0x06
    let manifold : Byte := match p.steam.manifold with
      | .free => 0x00
      | .purge => 0x01
      | .open => 0x02
      | .stalled => 0x03
    let holder : Byte := match p.steam.holder with
      | .none => 0x00
      | .auto .b1 => 0x01
      | .auto .b2 => 0x02
      | .auto .b3 => 0x03
      | .auto .b4 => 0x04
      | .manual .b1 => 0x81
      | .manual .b2 => 0x82
      | .manual .b3 => 0x83
      | .manual .b4 => 0x84
    let plant : List Byte :=
      [mode, boiler, if p.boiler.refill then 1 else 0]
      ++ le16s p.boiler.tb ++ le16 t.vAvg ++ [manifold, holder] ++ bays p.steam.queue
      ++ [maskByte [p.comp.running, !p.comp.running && p.comp.offTimer = .expired]]
      ++ bays (p.air.holders.map AirHolder.bay) ++ bays p.air.queue
      ++ [maskByte [on .ovp, on .ovt, on .loww && p.trips.armed, false, p.trips.sensorSource, on .tank, on .cond,
            p.trips.brownSource],
          maskByte [p.trips.latches.ovp, p.trips.latches.ovt, p.trips.latches.loww, p.trips.latches.feed,
            p.trips.latches.sensor],
          maskByte [(p.port .sp).linkUp, (p.port (.bp .b1)).linkUp, (p.port (.bp .b2)).linkUp,
            (p.port (.bp .b3)).linkUp, (p.port (.bp .b4)).linkUp]]
    let entry (l : Load) : List Byte := let e := p.load l
      le16 e.rating ++ le16 e.full ++ [byteOf e.weight] ++ le16 e.request ++ le16 e.grant ++ le16 e.duty
      ++ le16 (e.duty * e.full / 1000) ++ [maskByte [e.forced, l ≠ .l0 && e.clipped, e.manual.isSome]]
      ++ le16 (e.manual.getD 0)
    let first : List Byte :=
      [t.number, if p.comp.running then 1 else 0] ++ le16 t.pComp ++ le16 p.live.budget ++ le16 p.live.standing
      ++ le16 t.headroom ++ le16 t.unallocated ++ [byteOf t.rounds] ++ le16 t.vAvg ++ le16 t.vClamped ++ le16 t.vNom
      ++ entry .l0
    let second := t.number :: (entry (.bay .b1) ++ entry (.bay .b2))
    let third := t.number :: (entry (.bay .b3) ++ entry (.bay .b4))
    (plant.length, first.length, second.length, third.length) = (28, 35, 33, 33)
    ∧ Answers (.plantQuery q []) s q ⟨0x32, .ok, plant⟩
    ∧ Answers (.ledgerRead .sp [0]) s .sp ⟨0x56, .ok, first⟩
    ∧ Answers (.ledgerRead .sp [1]) s .sp ⟨0x56, .ok, second⟩
    ∧ Answers (.ledgerRead .sp [2]) s .sp ⟨0x56, .ok, third⟩
    ∧ (∀ x : Byte, 2 < x.toNat → Answers (.ledgerRead .sp [x]) s .sp ⟨0x56, .args, []⟩)

/-- CFG_READ (R188): the four views give the 18 live-class or the 8 staged-class values of the live or the staged set, in
the order of R184, two bytes each; another view is refused ARGS. CNT_READ and CNT_READ_CLEAR (R189, R190): every counter
of the group, four bytes each; the clearing read sets those, and no others, to 0; a group above 5 is refused ARGS. -/
def Obligations.ConfigurationAndCounterReads : Prop :=
  ∀ (s : State) (b : Bay), (s.part.port .sp).tx = none →
    let low (c : Settings) : List Byte :=
      ([c.budget, c.standing, c.w0, c.w.b1, c.w.b2, c.w.b3, c.w.b4, c.slice, c.purgeGap, c.capacity, c.airSlice,
        c.starveAlert, c.tSet, c.tKeep, c.keepDelay, c.kb, c.ka, c.strokeLimit] : List Nat).flatMap le16
    let high (c : Settings) : List Byte :=
      ([c.r0, c.r.b1, c.r.b2, c.r.b3, c.r.b4, c.pComp, c.vNom, c.yield] : List Nat).flatMap le16
    let c := s.part.counters
    let x := c.bays.get b
    let bytes (ns : List Count32) : List Byte := ns.flatMap fun n => le32 n.toNat
    let plant := bytes [c.plant.heaterWh, c.plant.starts, c.plant.runSeconds, c.plant.strokes, c.plant.boilerTrips,
      c.plant.supplyTrips, c.plant.mainsTrips]
    let bay := bytes [x.steamMg, x.heaterWh, x.complete, x.short, x.cut, x.starved, x.clipped]
    let ports := bytes [c.frameErrors.sp, c.frameErrors.bays.b1, c.frameErrors.bays.b2, c.frameErrors.bays.b3,
      c.frameErrors.bays.b4, c.overruns.sp, c.overruns.bays.b1, c.overruns.bays.b2, c.overruns.bays.b3,
      c.overruns.bays.b4]
    let cleared (k : Counters) (data : List Byte) : Host.Outcome State Fault Refusal :=
      .next ⟨({ s.part with counters := k }).send .sp ⟨0x55, .ok, data⟩, s.pending⟩
    Answers (.cfgRead .sp [0]) s .sp ⟨0x53, .ok, low s.part.live⟩
    ∧ Answers (.cfgRead .sp [1]) s .sp ⟨0x53, .ok, high s.part.live⟩
    ∧ Answers (.cfgRead .sp [2]) s .sp ⟨0x53, .ok, low s.part.staged⟩
    ∧ Answers (.cfgRead .sp [3]) s .sp ⟨0x53, .ok, high s.part.staged⟩
    ∧ (low s.part.live).length = 36 ∧ (high s.part.live).length = 16
    ∧ (∀ args : List Byte, (∀ x ∈ args, args.length = 1 → 3 < x.toNat) →
        Answers (.cfgRead .sp args) s .sp ⟨0x53, .args, []⟩)
    ∧ (plant.length, bay.length, ports.length) = (28, 28, 40)
    ∧ Answers (.cntRead .sp [0]) s .sp ⟨0x54, .ok, plant⟩
    ∧ Answers (.cntRead .sp [byteOf (Bay.number b)]) s .sp ⟨0x54, .ok, bay⟩
    ∧ Answers (.cntRead .sp [5]) s .sp ⟨0x54, .ok, ports⟩
    ∧ exec (.cntReadClear .sp [0]) s = cleared { c with plant := ⟨0, 0, 0, 0, 0, 0, 0⟩ } plant
    ∧ exec (.cntReadClear .sp [byteOf (Bay.number b)]) s =
        cleared { c with bays := c.bays.set b ⟨0, 0, 0, 0, 0, 0, 0⟩ } bay
    ∧ exec (.cntReadClear .sp [5]) s =
        cleared { c with frameErrors := ⟨0, ⟨0, 0, 0, 0⟩⟩, overruns := ⟨0, ⟨0, 0, 0, 0⟩⟩ } ports
    ∧ (∀ args : List Byte, (∀ g ∈ args, args.length = 1 → 5 < g.toNat) →
        Answers (.cntRead .sp args) s .sp ⟨0x54, .args, []⟩ ∧ Answers (.cntReadClear .sp args) s .sp ⟨0x55, .args, []⟩)

/-- NOTE_READ, NOTE_ACK and NOTE_ENABLE (R167, R168, R169), with the ATTN level that follows (R163). -/
def Obligations.NoticeRequestsActOnTheirPort : Prop :=
  ∀ (s : State) (p : Port) (mask : Byte), (s.part.port p).tx = none →
    let n := s.part.notice p
    let m : BitVec 5 := mask.truncate 5
    let byte (x : BitVec 5) : Byte := x.zeroExtend 8
    let becomes (c : Instr) (code : Byte) (x : Notice) (data : List Byte) : Prop :=
      let t := ({ s.part with notices := s.part.notices.set p x }).send p ⟨code, .ok, data⟩
      exec c s = .next ⟨t, s.pending⟩ ∧ (t.outputs.attn.get p = true ↔ x.flags &&& x.enables = 0)
    Answers (.noteRead p []) s p ⟨0x38, .ok, [byte n.flags, byte n.enables]⟩
    ∧ (∀ args, args ≠ [] → Answers (.noteRead p args) s p ⟨0x38, .args, []⟩)
    ∧ (∀ args : List Byte, (args.length ≠ 1 ∨ ∃ x ∈ args, x &&& 0xE0 ≠ 0) →
        Answers (.noteAck p args) s p ⟨0x39, .args, []⟩ ∧ Answers (.noteEnable p args) s p ⟨0x3A, .args, []⟩)
    ∧ (mask &&& 0xE0 = 0 →
        becomes (.noteAck p [mask]) 0x39 { n with flags := n.flags &&& ~~~m }
          [byte n.flags, byte (n.flags &&& ~~~m), byte n.enables]
        ∧ becomes (.noteEnable p [mask]) 0x3A { n with enables := m } [byte n.flags, byte m])

/-- The outputs as their owners drive them (R87, R112, R129, R154, R163): what each output follows, and the trips that
force it off; the dampers and the ATTN lines are forced by none. A heater's on-time of the whole period keeps it on to the
start of the next (R87). The pins show these levels once power-on reset has ended with RESETN high and the supply valid,
and before that every plant output is low and every TX and ATTN high (R195). -/
def Obligations.OutputsFollowTheirOwnersAndTheTrips : Prop :=
  ∀ (s : Part),
    let boilerTrip := s.trips.latches.any
    let on (i : TripInput) : Bool := (s.trips.inputs.get i).active
    let lit (h : HeatOut) : Prop := h.pos < h.onTime ∨ 2000 ≤ h.onTime
    (∀ l, s.outputs.heat.get l = true → lit (s.table.heat.get l)
      ∧ (s.load l).forced = false ∧ s.trips.brownSource = false ∧ (l = .l0 → boilerTrip = false))
    ∧ (∀ l, lit (s.table.heat.get l) → (s.load l).forced = false →
        s.trips.brownSource = false → (l = .l0 → boilerTrip = false) → s.outputs.heat.get l = true)
    ∧ s.outputs.feed = (s.boiler.feed.isSome && !boilerTrip && !on .tank)
    ∧ (∀ b, s.outputs.valve.get b =
        (!boilerTrip && s.steam.manifold = .open && (s.steam.holder = .auto b || s.steam.holder = .manual b)))
    ∧ s.outputs.comp = (s.comp.running && !on .cond && !s.trips.brownSource)
    ∧ (∀ b, s.outputs.damp.get b = true ↔ b ∈ s.air.holders.map AirHolder.bay ∨ s.air.marks.get b = true)
    ∧ (∀ p, s.outputs.attn.get p = true ↔ (s.notice p).flags &&& (s.notice p).enables = 0)
    ∧ (∀ p, s.outputs.txIdleHigh.get p = (s.port p).tx.isNone)
    ∧ (s.pins.resetn = true → s.pins.supply = true → s.started = true → s.pinLevels = s.outputs)
    ∧ (s.pins.resetn = false ∨ s.pins.supply = false ∨ s.started = false →
        (∀ l, s.pinLevels.heat.get l = false) ∧ s.pinLevels.feed = false ∧ s.pinLevels.comp = false
        ∧ (∀ b, s.pinLevels.valve.get b = false ∧ s.pinLevels.damp.get b = false)
        ∧ ∀ p, s.pinLevels.tx.get p = true ∧ s.pinLevels.attn.get p = true)

/-! ## Plant Supervision (chapter 9) -/

/-- PLANT_START (R43, R45, R99, R174): refused STATE outside OFFLINE and TRIPPED under a latch; otherwise STARTING, the
boiler fills, or heats at once with PROBE_HI WET, and PLANT leaves every runner. The bays that so run place their demands in
one order of the bays, which the manual leaves open (DESIGN CHOICE, log entry 3): those with a STEAM demand join the steam
queue each at its tail, ungranted (R113, R123); of those with an AIR demand the first C are granted and the others wait
behind one another (R130, R131), and the compressor makes its start test with a grant (R137). -/
def Obligations.PlantStartStartsThePlant : Prop :=
  ∀ (s : State), (s.part.port .sp).tx = none → s.part.ServiceLaw →
    (s.part.mode ≠ .offline → Answers (.plantStart .sp []) s .sp ⟨0x41, .state, []⟩)
    ∧ (s.part.mode = .offline → s.part.trips.latches.any = true →
        Answers (.plantStart .sp []) s .sp ⟨0x41, .tripped, []⟩)
    ∧ (s.part.mode = .offline → s.part.trips.latches.any = false → s.part.boiler.state = .cold →
        (s.part.boiler.hiWet = true → (s.part.trips.inputs.get .loww).active = false) →
        ∃ t, exec (.plantStart .sp []) s = .next ⟨t, s.pending⟩ ∧ s.part.Replied t .sp ⟨0x41, .ok, []⟩
          ∧ t.mode = .starting ∧ t.notedSp .mode
          ∧ t.boiler = { s.part.boiler with
              state := if s.part.boiler.hiWet then .heating else .filling, strokes := 0, refill := false }
          ∧ (∀ b, (t.runner b).causes = { (s.part.runner b).causes with plant := false }
              ∧ (t.runner b).state = (if (s.part.runner b).state = .paused ∧ (t.runner b).causes.empty then .running
                  else (s.part.runner b).state)
              ∧ ((s.part.runner b).state ≠ .idle → t.noted b .plant))
          ∧ t.steam.holder = .none ∧ (∀ b, t.claimsSteam b ↔ (t.runner b).demand = .steam)
          ∧ (∃ order : List Bay, order.Perm [.b1, .b2, .b3, .b4] ∧
              let steams := order.filter fun b => (t.runner b).demand = .steam
              let airs := order.filter fun b => (t.runner b).demand ≠ .steam ∧ (t.runner b).demand ≠ .none
              let c := s.part.live.capacity
              t.steam = { s.part.steam with queue := steams }
              ∧ t.air = { s.part.air with
                  queue := airs.drop c, holders := (airs.take c).map fun b => ⟨b, 0, s.part.live.airSlice⟩ })
          ∧ ({ s.part with mode := .starting } : Part).StartTested t
          ∧ t.store = s.part.store ∧ t.live = s.part.live ∧ t.staged = s.part.staged ∧ t.trips.latches.any = false)

/-- PLANT_HALT and MANUAL_ENTER (R43, R92, R103, R123, R135, R139, R176, R179, R180): each withdraws every claim,
pauses every runner, empties both arbiters, stops the compressor and keeps the records; no bay heater requests, is
granted or draws anything after it (R65, R66; before it the holders of air alone do, `Part.HeatLaw`). PLANT_HALT is
refused STATE outside STARTING and ONLINE, and otherwise leaves OFFLINE with the boiler COLD unless LOCKED, and L0 at
rest by that entry. MANUAL_ENTER is refused STATE in MANUAL_PENDING and MANUAL; otherwise the mode is MANUAL where the
manifold is FREE, with the boiler MANUAL unless LOCKED and every heater at a manual duty of 0, and MANUAL_PENDING with
the boiler unchanged where it is not. A holder, OPEN or STALLED, leaves a purge of the live gap behind (R116, R119;
log entry 27 for a gap of 0 beside an earlier purge). An entry of the boiler to COLD or MANUAL ends its feed pulse,
and leaves no strokes, idle seconds, manual strokes or refill (R103, R107; `Boiler.entered`). The boiler is MANUAL in
plant MANUAL alone (`Part.ServiceLaw`), so no allocation here arms LOWW. -/
def Obligations.PlantHaltAndManualEnterWithdrawEveryGrant : Prop :=
  ∀ (s : State), (s.part.port .sp).tx = none → s.part.ServiceLaw → s.part.steam.Law →
    let p := s.part
    let purge := p.steam.purgeFrom p.live.purgeGap
    let withdrawn (t : Part) : Prop := t.notedSp .mode ∧ t.ArbitersEmpty ∧ t.comp.running = false
      ∧ (p.comp.running = true → t.comp.offTimer = .running 180000)
      ∧ (p.steam.holder = .none → t.steam = { p.steam with queue := [] })
      ∧ (p.steam.holder ≠ .none →
          t.steam = ⟨[], .none, if purge = none then .free else .purge, none, purge, p.steam.yield⟩)
      ∧ (p.HeatLaw → ∀ b, t.idleLoad (.bay b))
      ∧ (∀ b, (t.runner b).state = (p.runner b).state.whenPaused ∧ (t.runner b).demand = .none
          ∧ (t.runner b).causes = { (p.runner b).causes with plant := true }
          ∧ ((p.mode = .starting ∨ p.mode = .online) → (p.runner b).state ≠ .idle → t.noted b .plant))
      ∧ t.store = p.store ∧ t.live = p.live ∧ t.staged = p.staged ∧ t.counters.bays = p.counters.bays
      ∧ t.trips = { p.trips with armed := t.trips.armed }
    (p.mode ≠ .starting → p.mode ≠ .online → Answers (.plantHalt .sp []) s .sp ⟨0x42, .state, []⟩)
    ∧ (p.mode = .starting ∨ p.mode = .online →
        ∃ t, exec (.plantHalt .sp []) s = .next ⟨t, s.pending⟩ ∧ p.Replied t .sp ⟨0x42, .ok, []⟩ ∧ withdrawn t
          ∧ t.mode = .offline ∧ (t.steam.manifold = .free ∨ t.steam.manifold = .purge) ∧ t.boiler = p.boiler.goneCold
          ∧ (p.boiler.state ≠ .locked → p.boiler.state ≠ .cold → t.idleLoad .l0))
    ∧ (p.mode = .manualPending ∨ p.mode = .manual → Answers (.manualEnter .sp []) s .sp ⟨0x44, .state, []⟩)
    ∧ (p.mode ≠ .manualPending → p.mode ≠ .manual →
        ∃ t, exec (.manualEnter .sp []) s = .next ⟨t, s.pending⟩ ∧ p.Replied t .sp ⟨0x44, .ok, []⟩ ∧ withdrawn t
          ∧ (t.steam.manifold = .free → t.mode = .manual ∧ t.boiler = p.boiler.goneManual
              ∧ ∀ l, (t.load l).manual = some 0 ∧ t.idleLoad l)
          ∧ (t.steam.manifold ≠ .free → t.mode = .manualPending ∧ t.steam.manifold = .purge ∧ t.boiler = p.boiler))

/-- PLANT_RESTART (R38, R67, R74, R103, R177, R178): records not DONE become RESTARTED and are counted in the reply,
every runner is IDLE, the staged set is live and applied with no full power recomputed, the mode is OFFLINE, and what
R178 lists is kept: the plant counters, the first-fault record, the fault count and the latches, the closures, the
notices, the tag counters, the link states and the staged set. That the starts counter may have risen by one is the
model's choice: the withdrawals are made in turn, so a grant may pass through a bay and start the compressor (DEDUCED,
log entry 17). The boiler's entry to COLD ends its feed pulse, and leaves no strokes, idle seconds, manual strokes or
refill (R103, R107), and no heater has a request, a grant or a duty after it, the bays' because before it the holders
of air alone have one (R65, R66, R93; `Part.HeatLaw`). In plant MANUAL under an ACTIVE LOWW input LOWW trips exactly
where the allocation on the copied budget, standing load and weights, one that the budget stop of R80 or a change of
them runs (DESIGN CHOICE, log entry 34), gives a MANUAL boiler's L0 a duty, and every runner is IDLE by then (R149). -/
def Obligations.PlantRestartEndsEveryProgramme : Prop :=
  ∀ (s : State), (s.part.port .sp).tx = none → s.part.ServiceLaw → s.part.steam.Law → s.part.CompressorLaw →
    let fresh (b : Bay) : Byte := byteOf ((s.part.list b).countP fun r => !r.isDone)
    let starts := s.part.counters.plant.starts
    let p := s.part
    let c := p.staged
    let live : Part := { p with live := c, table := p.table.weighted c }
    let stops : Prop := p.comp.running = true ∧ c.budget < c.standing + p.table.pComp
    let changes : Prop := c.budget ≠ p.live.budget ∨ c.standing ≠ p.live.standing ∨ ∃ l, c.weight l ≠ p.live.weight l
    let table := live.table.allocate (live.headroomWith (if stops then false else p.comp.running))
    let raises : Prop := p.boiler.state = .manual ∧ (p.trips.inputs.get .loww).active = true
      ∧ (stops ∨ changes) ∧ 0 < table.loads.l0.duty
    let kept (t : Part) : Prop := t.boiler = p.boiler.goneCold
      ∧ t.counters = { s.part.counters with plant := { s.part.counters.plant with starts := t.counters.plant.starts } }
      ∧ t.trips = { s.part.trips with armed := t.trips.armed }
    ∃ t, exec (.plantRestart .sp []) s = .next ⟨t, s.pending⟩
      ∧ s.part.Replied t .sp ⟨0x43, .ok, [fresh .b1, fresh .b2, fresh .b3, fresh .b4]⟩
      ∧ (∀ b, t.list b = (s.part.list b).map (fun r => if r.isDone then r else { r with phase := .done .restarted })
          ∧ (t.store.get b).nextTag = (s.part.store.get b).nextTag
          ∧ t.runner b = ⟨.idle, ⟨false, (s.part.runner b).causes.closure, true⟩, (s.part.runner b).shut, .none, 0,
              false⟩
          ∧ (s.part.list b ≠ [] → t.noted b .plant))
      ∧ t.live = s.part.staged ∧ t.staged = s.part.staged
      ∧ (∀ l, (t.load l).rating = s.part.staged.rating l ∧ (t.load l).weight = s.part.staged.weight l
          ∧ (t.load l).full = (s.part.load l).full ∧ (t.load l).manual = if s.part.mode = .manual then none else
            (s.part.load l).manual)
      ∧ (t.table.pComp, t.table.vNom, t.steam.yield)
          = (s.part.staged.pComp, s.part.staged.vNom, s.part.staged.yield)
      ∧ t.mode = .offline ∧ (s.part.mode ≠ .offline → t.notedSp .mode) ∧ t.ArbitersEmpty
      ∧ (s.part.mode ≠ .offline → s.part.mode ≠ .manualPending → t.comp.running = false)
      ∧ (p.HeatLaw → ∀ b, t.idleLoad (.bay b)) ∧ (p.mode = .manual → ∀ l, t.idleLoad l)
      ∧ (p.boiler.state ≠ .locked → p.boiler.state ≠ .cold → t.idleLoad .l0)
      ∧ (¬ raises → kept t)
      ∧ (raises → p.TripLaw → p.LowwLaw →
          ({ p with runners := t.runners } : Part).LowwTrips t ∧ t.boiler = p.boiler.entered .locked)
      ∧ (t.counters.plant.starts = starts
          ∨ s.part.comp.offTimer = .expired ∧ t.counters.plant.starts = starts + 1)
      ∧ (∀ p, (t.notice p).enables = (s.part.notice p).enables
          ∧ (t.notice p).flags ||| (s.part.notice p).flags = (t.notice p).flags
          ∧ (t.port p).linkUp = (s.part.port p).linkUp)

/-- MANUAL_EXIT (R93, R103, R123, R135, R139, R183): refused STATE outside MANUAL; otherwise OFFLINE with the boiler
COLD unless LOCKED with that entry's effects (R107, `Boiler.entered`), no valve or damper open, the compressor
stopped, the manual duties removed and every heater off. A manual holder leaves a purge behind (R116, R123; log entry
27 for a gap of 0 beside an earlier purge). -/
def Obligations.ManualExitTurnsEveryDriveOff : Prop :=
  ∀ (s : State), (s.part.port .sp).tx = none →
    (s.part.mode ≠ .manual → Answers (.manualExit .sp []) s .sp ⟨0x46, .state, []⟩)
    ∧ (s.part.mode = .manual → s.part.steam.Law → s.part.ServiceLaw →
        ∃ t, exec (.manualExit .sp []) s = .next ⟨t, s.pending⟩ ∧ s.part.Replied t .sp ⟨0x46, .ok, []⟩
          ∧ t.mode = .offline ∧ t.notedSp .mode
          ∧ t.boiler = s.part.boiler.goneCold
          ∧ t.steam.holder = .none ∧ (∀ b, t.air.damperOpen b = false) ∧ t.comp.running = false
          ∧ (s.part.steam.holder = .none → t.steam = s.part.steam)
          ∧ (s.part.steam.holder ≠ .none → s.part.SteamReleased s.part.steam.queue t.steam)
          ∧ (s.part.comp.running = true → t.comp.offTimer = .running 180000)
          ∧ (∀ l, (t.load l).manual = none ∧ (t.load l).request = 0 ∧ (t.load l).grant = 0 ∧ (t.load l).duty = 0
              ∧ (t.table.heat.get l).onTime = 0)
          ∧ t.runners = s.part.runners ∧ t.store = s.part.store ∧ t.live = s.part.live
          ∧ t.notices.bays = s.part.notices.bays)

/-! ## Manual drives (R181, R182) -/

/-- MAN_DRIVE on a heater and on FEED (R92, R108, R181): outside plant MANUAL both are refused STATE. A heater drive
stores the clamped duty, requests floor(duty × F / 1000) and allocates; a FEED drive sets the outstanding strokes of a
MANUAL boiler and is refused TRIPPED while it is LOCKED. A drive that gives a MANUAL boiler's L0 a duty over an ACTIVE
LOWW input is no case of this statement (`Part.NoLowwTrip`): LOWW trips there (R149,
`Obligations.LowwLatchesWhereItBecomesArmed`). -/
def Obligations.HeaterAndFeedDrives : Prop :=
  ∀ (s : State) (l : Load) (duty count : Half), (s.part.port .sp).tx = none →
    let e := s.part.load l
    let d := min duty.toNat 1000
    let table := (s.part.table.driven l d).allocate (s.part.headroomWith s.part.comp.running)
    let e' := table.loads.get l
    let drive : Byte := match l with
      | .l0 => 0x01
      | .bay b => byteOf (1 + Bay.number b)
    let n := max 1 (min 50 count.toNat)
    (s.part.mode ≠ .manual → Answers (.manDriveHeat .sp l duty) s .sp ⟨0x45, .state, []⟩
      ∧ Answers (.manDriveFeed .sp count) s .sp ⟨0x45, .state, []⟩)
    ∧ (s.part.mode = .manual → s.part.NoLowwTrip table →
        exec (.manDriveHeat .sp l duty) s = .next ⟨({ s.part with
            table := table, trips := { s.part.trips with armed := s.part.armedAfter table } }).send .sp
          ⟨0x45, .ok, [drive] ++ le16 d ++ [if 1000 < duty.toNat then 1 else 0] ++ le16 d ++ le16 (d * e.full / 1000)
            ++ le16 e'.grant ++ le16 e'.duty ++ [if e'.grant < d * e.full / 1000 then 1 else 0]⟩, s.pending⟩)
    ∧ (s.part.mode = .manual → s.part.boiler.state = .locked →
        Answers (.manDriveFeed .sp count) s .sp ⟨0x45, .tripped, []⟩)
    ∧ (s.part.mode = .manual → s.part.boiler.state = .manual →
        exec (.manDriveFeed .sp count) s = .next
          ⟨({ s.part with boiler := { s.part.boiler with manualStrokes := n } }).send .sp
            ⟨0x45, .ok, [0x08] ++ le16 n ++ [if n = count.toNat then 0 else 1] ++ [byteOf n]⟩, s.pending⟩)

/-- MAN_DRIVE on a valve (R116, R124, R181): outside plant MANUAL it is refused STATE. Opening is refused TRIPPED under a
boiler-class latch and STATE with another valve open, in PURGE, with the purge timer running or the closure OPEN;
otherwise the bay is the manual holder of an OPEN manifold. Closing an open valve starts the purge. A drive to the state
that stands is answered OK and changes nothing. The replies give manifold and holder in the codes of section 10.3. -/
def Obligations.ValveDrives : Prop :=
  ∀ (s : State) (b : Bay), (s.part.port .sp).tx = none →
    let p := s.part
    let a := p.steam
    let manifold : Byte := match p.steam.manifold with
      | .free => 0x00
      | .purge => 0x01
      | .open => 0x02
      | .stalled => 0x03
    let holder : Byte := match p.steam.holder with
      | .none => 0x00
      | .auto .b1 => 0x01
      | .auto .b2 => 0x02
      | .auto .b3 => 0x03
      | .auto .b4 => 0x04
      | .manual .b1 => 0x81
      | .manual .b2 => 0x82
      | .manual .b3 => 0x83
      | .manual .b4 => 0x84
    let open_ : Prop := a.manifold = .open ∧ (a.holder = .auto b ∨ a.holder = .manual b)
    let free : Prop := a.manifold = .free ∧ a.purge = none ∧ (s.part.runner b).shut = true
    let n := byteOf (0x10 + Bay.number b)
    let gap := s.part.live.purgeGap
    let shut : Steam := ⟨a.queue, .none, if gap = 0 then .free else .purge, none,
      if gap = 0 then none else some (gap * 1000), a.yield⟩
    (s.part.mode ≠ .manual → Answers (.manDriveValveOpen .sp b) s .sp ⟨0x45, .state, []⟩
      ∧ Answers (.manDriveValveClose .sp b) s .sp ⟨0x45, .state, []⟩)
    ∧ (s.part.mode = .manual →
      (s.part.trips.latches.any = true → Answers (.manDriveValveOpen .sp b) s .sp ⟨0x45, .tripped, []⟩)
      ∧ (s.part.trips.latches.any = false → open_ →
          Answers (.manDriveValveOpen .sp b) s .sp ⟨0x45, .ok, [n, 1, 0, 0, 0x02, holder]⟩)
      ∧ (s.part.trips.latches.any = false → ¬ open_ → ¬ free →
          Answers (.manDriveValveOpen .sp b) s .sp ⟨0x45, .state, []⟩)
      ∧ (s.part.trips.latches.any = false → free → exec (.manDriveValveOpen .sp b) s = .next ⟨({ s.part with
            steam := { a with holder := .manual b, manifold := .open, slice := none } }).send .sp
          ⟨0x45, .ok, [n, 1, 0, 0, 0x02, byteOf (0x80 + Bay.number b)]⟩, s.pending⟩)
      ∧ (¬ open_ → Answers (.manDriveValveClose .sp b) s .sp
          ⟨0x45, .ok, [n, 0, 0, 0, manifold, holder]⟩)
      ∧ (open_ → a.purge = none → exec (.manDriveValveClose .sp b) s = .next ⟨({ s.part with steam := shut }).send .sp
          ⟨0x45, .ok, [n, 0, 0, 0, if gap = 0 then 0x00 else 0x01, 0x00]⟩, s.pending⟩))

/-- MAN_DRIVE on the compressor and on a damper (R78, R79, R135, R140, R181): outside plant MANUAL they are refused
STATE. A start waits for COND and BROWN (TRIPPED), the off timer and the admission (STATE); a stop for the on timer
(STATE); a damper opens and closes whatever the trips and the closure. A drive whose allocation gives a MANUAL boiler's
L0 a duty over an ACTIVE LOWW input is no case of this statement (`Part.NoLowwTrip`): LOWW trips there (R149,
`Obligations.LowwLatchesWhereItBecomesArmed`). -/
def Obligations.CompressorAndDamperDrives : Prop :=
  ∀ (s : State) (b : Bay), (s.part.port .sp).tx = none →
    let p := s.part
    let cs := [Instr.manDriveCompOn .sp, .manDriveCompOff .sp, .manDriveDampOpen .sp b, .manDriveDampClose .sp b]
    let barred := (p.trips.inputs.get .cond).active = true ∨ p.trips.brownSource = true
    let fits := p.live.standing + p.table.pComp ≤ p.live.budget
    let plant := p.counters.plant
    let on := p.table.allocate (p.headroomWith true)
    let off := p.table.allocate (p.headroomWith false)
    let holds : Bool := decide (b ∈ p.air.holders.map AirHolder.bay)
    let n := byteOf (0x20 + Bay.number b)
    (p.mode ≠ .manual → ∀ c ∈ cs, Answers c s .sp ⟨0x45, .state, []⟩)
    ∧ (p.mode = .manual →
      (p.comp.running = true → Answers (.manDriveCompOn .sp) s .sp ⟨0x45, .ok, [0x18, 1, 0, 0, 1]⟩)
      ∧ (p.comp.running = false → barred → Answers (.manDriveCompOn .sp) s .sp ⟨0x45, .tripped, []⟩)
      ∧ (p.comp.running = false → ¬ barred → (p.comp.offTimer ≠ .expired ∨ ¬ fits) →
          Answers (.manDriveCompOn .sp) s .sp ⟨0x45, .state, []⟩)
      ∧ (p.comp.running = false → ¬ barred → p.comp.offTimer = .expired → fits → p.NoLowwTrip on →
          exec (.manDriveCompOn .sp) s = .next ⟨({ p with
              comp := ⟨true, .running 60000, .stopped⟩, table := on
              counters := { p.counters with plant := { plant with starts := plant.starts + 1 } }
              trips := { p.trips with armed := p.armedAfter on } }).send .sp ⟨0x45, .ok, [0x18, 1, 0, 0, 1]⟩, s.pending⟩)
      ∧ (p.comp.running = false → Answers (.manDriveCompOff .sp) s .sp ⟨0x45, .ok, [0x18, 0, 0, 0, 0]⟩)
      ∧ (p.comp.running = true → p.comp.onTimer ≠ .expired →
          Answers (.manDriveCompOff .sp) s .sp ⟨0x45, .state, []⟩)
      ∧ (p.comp.running = true → p.comp.onTimer = .expired → p.NoLowwTrip off →
          exec (.manDriveCompOff .sp) s = .next ⟨({ p with
              comp := ⟨false, .stopped, .running 180000⟩, table := off
              trips := { p.trips with armed := p.armedAfter off } }).send .sp ⟨0x45, .ok, [0x18, 0, 0, 0, 0]⟩,
            s.pending⟩)
      ∧ exec (.manDriveDampOpen .sp b) s = .next ⟨({ p with
            air := { p.air with marks := if holds then p.air.marks else p.air.marks.set b true } }).send .sp
          ⟨0x45, .ok, [n, 1, 0, 0, 1]⟩, s.pending⟩
      ∧ exec (.manDriveDampClose .sp b) s = .next ⟨({ p with
            air := { p.air with marks := p.air.marks.set b false } }).send .sp
          ⟨0x45, .ok, [n, 0, 0, 0, if holds then 1 else 0]⟩, s.pending⟩)

/-! ## Configuration and FAULT_CLEAR -/

/-- CFG_LIVE and CFG_STAGE (R185, R187): an empty list, a selector of no parameter, a parameter named twice, and for
CFG_LIVE a staged-class parameter, are refused ARGS; otherwise every value is clamped and stored, and the reply gives the
stored values and the mask of those clamped. CFG_STAGE changes the staged set and nothing else. -/
def Obligations.ConfigurationRequestsStoreTheirEntries : Prop :=
  ∀ (s : State) (es : List ConfigEntry), (s.part.port .sp).tx = none →
    let args := ConfigEntry.args es
    let bad : Prop := es = [] ∨ 8 < es.length ∨ ¬ (es.map ConfigEntry.param).Nodup
    let staged : Prop := ∃ e ∈ es, e.param ∈ Param.stagedList
    (bad → Answers (.cfgStage .sp args) s .sp ⟨0x52, .args, []⟩)
    ∧ (bad ∨ staged → Answers (.cfgLive .sp args) s .sp ⟨0x51, .args, []⟩)
    ∧ (∀ (x lo hi : Byte) (pre post : List ConfigEntry), es = pre ++ post → x.toNat = 0 ∨ 0x1A < x.toNat →
        let spoilt := ConfigEntry.args pre ++ [x, lo, hi] ++ ConfigEntry.args post
        Answers (.cfgStage .sp spoilt) s .sp ⟨0x52, .args, []⟩ ∧ Answers (.cfgLive .sp spoilt) s .sp ⟨0x51, .args, []⟩)
    ∧ (¬ bad → exec (.cfgStage .sp args) s = .next
        ⟨({ s.part with staged := s.part.staged.after es }).send .sp ⟨0x52, .ok, ConfigEntry.reply es⟩, s.pending⟩)
    ∧ (¬ bad → ¬ staged → ∃ t, exec (.cfgLive .sp args) s = .next ⟨t, s.pending⟩
        ∧ s.part.Replied t .sp ⟨0x51, .ok, ConfigEntry.reply es⟩ ∧ t.live = s.part.live.after es
        ∧ t.staged = s.part.staged ∧ t.store = s.part.store ∧ t.runners = s.part.runners)

/-- The effects of CFG_LIVE in force (R80, R94, R134, R186). B, S and the weights run one allocation of the table with
the new weights, after the budget stop with its own allocation where S + P_comp is above B (DEDUCED, log entry 9), and
any other parameter but C changes the live set alone. C acts on what those leave: a raised C grants from the head of
the air queue in automatic operation, and the compressor makes its start test with a grant (R131, R137); a C lowered
to no fewer than the holders changes nothing; and a C below the number of holders returns those with the shortest hold
timers, of equal ones the most recently granted, to the head of the queue with the most recently granted first, ahead
of the bays that wait, and their heater requests fall to 0, each with its allocation. Where the allocation gives a
MANUAL boiler's L0 a duty over an ACTIVE LOWW input (`Part.NoLowwTrip`), LOWW trips (R149,
`Obligations.LowwLatchesWhereItBecomesArmed`). That no more bays hold than the live C allows (`Part.DamperLaw`), that
a load's weight is the live weight (`Part.BudgetLaw`) and that the boiler is MANUAL in plant MANUAL alone
(`Part.ServiceLaw`) are laws that steps keep. -/
def Obligations.LiveChangesTakeEffectAtOnce : Prop :=
  ∀ (s : State) (es : List ConfigEntry), (s.part.port .sp).tx = none →
    es ≠ [] → es.length ≤ 8 → (es.map ConfigEntry.param).Nodup →
    (∀ e ∈ es, e.param ∈ Param.liveList) → (∀ l, (s.part.load l).weight = s.part.live.weight l) →
    s.part.CompressorLaw → (s.part.air.holders.map AirHolder.bay).Nodup →
    let p := s.part
    let c := p.live.after es
    let names (q : Param) : Prop := q ∈ es.map ConfigEntry.param
    let budgets : Prop := names .budget ∨ names .standing
    let weighs : Prop := names .w0 ∨ ∃ b, names (.w b)
    let stops : Prop := budgets ∧ p.comp.running = true ∧ c.budget < c.standing + p.table.pComp
    let now (x : Part) : Prop := exec (.cfgLive .sp (ConfigEntry.args es)) s =
      .next ⟨x.send .sp ⟨0x51, .ok, ConfigEntry.reply es⟩, s.pending⟩
    let live : Part := { p with live := c, table := p.table.weighted c }
    let auto : Prop := p.mode = .starting ∨ p.mode = .online
    let back := p.air.holders.length - c.capacity
    let stays : Prop := c.capacity = p.live.capacity ∨ c.capacity < p.live.capacity ∧ p.air.holders.length ≤ c.capacity
    let byHand : Prop := p.boiler.state = .manual → p.mode = .manual
    let then_ (u : Part) : Prop :=
      (stays → now u)
      ∧ (p.live.capacity < c.capacity → p.DamperLaw → byHand → ∃ t : Part, now t
          ∧ t = { u with
              air := t.air, comp := t.comp, table := t.table, counters := { u.counters with plant := t.counters.plant } }
          ∧ u.AirGrants p.air.queue p.air.holders t.air
          ∧ (t.air.holders = p.air.holders → u.CompKept t) ∧ (t.air.holders ≠ p.air.holders → u.StartTested t)
          ∧ t.table = (if t.comp = u.comp then u.table else u.table.allocate (u.headroomWith true)))
      ∧ (c.capacity < p.air.holders.length → p.DamperLaw → byHand → ∃ (a : Air) (order : List Bay),
          order.Perm ((p.air.holders.filter fun h => h ∉ a.holders).map AirHolder.bay)
          ∧ now { u with
              air := a
              table := if p.mode = .manual then u.table
                else order.foldl (fun x b => x.returned b (u.headroomWith u.comp.running)) u.table })
    (¬ budgets → ¬ weighs → then_ { p with live := c })
    ∧ (budgets ∨ weighs → ¬ stops →
        let table := live.table.allocate (live.headroomWith p.comp.running)
        p.NoLowwTrip table →
          then_ { live with table := table, trips := { p.trips with armed := p.armedAfter table } })
    ∧ (stops →
        let table := (live.table.allocate (live.headroomWith false)).allocate (live.headroomWith false)
        p.NoLowwTrip table → then_ { live with
          comp := ⟨false, .stopped, .running 180000⟩, table := table
          trips := { p.trips with armed := p.armedAfter table } })
    ∧ ∃ t, exec (.cfgLive .sp (ConfigEntry.args es)) s = .next ⟨t, s.pending⟩ ∧ t.live = c
      ∧ (∀ l, (t.load l).weight = c.weight l)
      ∧ (p.DamperLaw → t.air.holders.length ≤ c.capacity)
      ∧ (p.live.capacity < c.capacity → p.DamperLaw →
          let n := if auto then c.capacity - p.air.holders.length else 0
          t.air = { p.air with
            queue := p.air.queue.drop n
            holders := p.air.holders ++ (p.air.queue.take n).map fun b => ⟨b, 0, c.airSlice⟩ })
      ∧ (c.capacity < p.air.holders.length → p.DamperLaw →
          t.air.holders.length = c.capacity ∧ t.air.marks = p.air.marks
          ∧ t.air.holders = p.air.holders.filter (fun h => h ∈ t.air.holders)
          ∧ t.air.queue = ((p.air.holders.filter fun h => h ∉ t.air.holders).map AirHolder.bay).reverse ++ p.air.queue
          ∧ (t.air.queue.take back).length = back
          ∧ ∀ x ∈ p.air.holders, x ∉ t.air.holders →
            (∀ y ∈ t.air.holders, x.heldMs < y.heldMs
              ∨ x.heldMs = y.heldMs ∧ p.air.holders.idxOf y < p.air.holders.idxOf x)
            ∧ (p.mode ≠ .manual → p.boiler.state ≠ .manual →
                (t.load (.bay x.bay)).request = 0 ∧ (t.load (.bay x.bay)).grant = 0))

/-- FAULT_CLEAR (R102, R158, R159): the reply gives the first-fault record, the fault count and the latches that stay;
the record is emptied and the count 0; each latch whose source is INACTIVE is cleared; and with the last one L0 is
released unless BROWN stands, the boiler leaves LOCKED by the plant mode, and the steam arbiter makes its grant test.
That a forced load has no duty (R82, R89) is a law that steps keep (`Part.TripLaw`). The LOWW input is taken as INACTIVE
only where the boiler goes on to HEATING, or to MANUAL with a duty for L0: an ACTIVE one trips afresh there (R149,
`Obligations.LowwLatchesWhereItBecomesArmed`). -/
def Obligations.FaultClearReleasesTheLatches : Prop :=
  ∀ (s : State), (s.part.port .sp).tx = none → s.part.TripLaw →
    let p := s.part
    let stays : Latches :=
      { ovp := p.trips.latches.ovp && (p.trips.inputs.get .ovp).active
        ovt := p.trips.latches.ovt && (p.trips.inputs.get .ovt).active
        loww := p.trips.latches.loww && (p.trips.inputs.get .loww).active && p.trips.armed
        feed := false, sensor := p.trips.latches.sensor && p.trips.sensorSource }
    let frees := p.trips.latches.any = true ∧ stays.any = false
    let lifted := p.table.lifted p.trips.brownSource (p.headroomWith p.comp.running)
    let arms : Prop := (p.mode = .starting ∨ p.mode = .online) ∧ p.boiler.hiWet = true
      ∨ p.mode = .manual ∧ 0 < lifted.loads.l0.duty
    (frees → arms → (p.trips.inputs.get .loww).active = false) → ∃ t, exec (.faultClear .sp []) s = .next ⟨t, s.pending⟩
      ∧ p.Replied t .sp ⟨0x57, .ok, FirstFault.bytes p.trips.first ++ [byteOf p.trips.faultCount,
          maskByte [stays.ovp, stays.ovt, stays.loww, stays.feed, stays.sensor]]⟩
      ∧ t.trips.first = none ∧ t.trips.faultCount = 0 ∧ t.trips.latches = stays
      ∧ t.store = p.store ∧ t.runners = p.runners ∧ t.counters = p.counters ∧ t.live = p.live ∧ t.mode = p.mode
      ∧ (p.trips.latches ≠ stays → ∀ b, (p.runner b).state ≠ .idle → t.noted b .plant)
      ∧ (¬ frees → t.boiler = p.boiler ∧ t.steam = p.steam ∧ t.table = p.table)
      ∧ (frees → (t.load .l0).forced = p.trips.brownSource ∧ t.boiler.state = (match p.mode with
            | .offline | .manualPending => .cold
            | .starting | .online => if p.boiler.hiWet then .heating else .filling
            | .manual => .manual)
          ∧ (∀ b rest, p.steam.queue = b :: rest → p.steam.manifold = .free → p.mode = .online →
              t.steam = { p.steam with
                queue := rest, holder := .auto b, slice := some (p.live.slice * 1000), manifold := .stalled }))

/-- LOWW that becomes armed while its input is ACTIVE is an activation (R149, R152, R155 to R157), wherever a command
arms it: a fill that ends and goes on to HEATING; PLANT_START and FAULT_CLEAR that go there at once, or a FAULT_CLEAR
that leaves L0 with a duty in plant MANUAL; and in plant MANUAL every allocation that raises L0's duty from 0: of a
heater drive (R92), of the compressor's start or stop by a drive (R140) or by COND (R139), of CFG_LIVE (R80, R94), of the
Allocator's second (R73), of BROWN's lift (R153), and of a link loss (R68, R92; DESIGN CHOICE, log entry 30). LOWW
latches, the boiler is LOCKED and HEAT0 is off in that event, and the rest of the command's effect stands: the request is
still answered, the timers, settings and counters move as they do without the trip. FAULT_CLEAR empties the first-fault
record before the new fault fills it (R159), and COND's own fault comes first there (R156).
`Obligations.PlantRestartEndsEveryProgramme` says it of a restart. -/
def Obligations.LowwLatchesWhereItBecomesArmed : Prop :=
  ∀ (s : State), (s.part.port .sp).tx = none → s.part.TripLaw → (s.part.trips.inputs.get .loww).active = true →
    s.part.trips.armed = false →
    let p := s.part
    let starting : Part := { p with mode := .starting }
    let emptied : Part := { p with trips := { p.trips with first := none, faultCount := 0 } }
    let latches := p.trips.latches
    let clears : Prop := latches.any = true ∧ (latches.ovp = true → (p.trips.inputs.get .ovp).active = false)
      ∧ (latches.ovt = true → (p.trips.inputs.get .ovt).active = false)
      ∧ (latches.sensor = true → p.trips.sensorSource = false)
    let h := p.headroomWith p.comp.running
    let raises (t : LoadTable) : Prop := 0 < t.loads.l0.duty
    let trips (c : Instr) (u : Part) (also : Part → Prop) : Prop :=
      ∃ t, exec c s = .next ⟨t, s.pending⟩ ∧ u.LowwTrips t ∧ t.store = u.store ∧ t.live = u.live ∧ also t
    let byHand (c : Instr) (u : Part) (also : Part → Prop) : Prop := trips c u fun t =>
      t.mode = .manual ∧ t.runners = u.runners ∧ (t.load .l0).manual = some 0 ∧ (t.load .l0).request = 0
        ∧ t.staged = p.staged ∧ also t
    let comp (s : Part) (on : Bool) : Prop :=
      s.comp = if on then ⟨true, .running 60000, .stopped⟩ else ⟨false, .stopped, .running 180000⟩
    (p.boiler.state = .filling → p.boiler.hiWet = false → p.mode ≠ .manual →
      trips (.probeReadingChange .hi true) p fun t =>
        t.boiler.hiWet = true ∧ t.runners = p.runners ∧ t.ports = p.ports)
    ∧ (p.mode = .offline → latches.any = false → p.boiler.hiWet = true →
      trips (.plantStart .sp []) starting fun t =>
        p.Replied t .sp ⟨0x41, .ok, []⟩ ∧ t.mode = .starting ∧ t.notedSp .mode)
    ∧ (clears → (p.mode = .starting ∨ p.mode = .online) ∧ p.boiler.hiWet = true
          ∨ p.mode = .manual ∧ raises (p.table.lifted p.trips.brownSource h) →
      trips (.faultClear .sp []) emptied fun t => t.runners = p.runners ∧ t.mode = p.mode
        ∧ p.Replied t .sp ⟨0x57, .ok, FirstFault.bytes p.trips.first ++ [byteOf p.trips.faultCount, 0x04]⟩)
    ∧ (p.mode = .manual → p.boiler.state = .manual →
      (∀ (l : Load) (duty : Half),
        let d := min duty.toNat 1000
        let drive : Byte := match l with
          | .l0 => 0x01
          | .bay b => byteOf (1 + Bay.number b)
        raises ((p.table.driven l d).allocate h) →
        byHand (.manDriveHeat .sp l duty) p fun t => let e := t.load l
          p.Replied t .sp ⟨0x45, .ok, [drive] ++ le16 d ++ [if 1000 < duty.toNat then 1 else 0]
              ++ le16 (if l = .l0 then 0 else d) ++ le16 e.request ++ le16 e.grant ++ le16 e.duty
              ++ [if e.grant < e.request then 1 else 0]⟩
            ∧ (l ≠ .l0 → e.manual = some d ∧ e.request = d * e.full / 1000))
      ∧ (p.comp.running = false → (p.trips.inputs.get .cond).active = false → p.trips.brownSource = false →
          p.comp.offTimer = .expired → p.live.standing + p.table.pComp ≤ p.live.budget →
        raises (p.table.allocate (p.headroomWith true)) →
        byHand (.manDriveCompOn .sp) p fun t => p.Replied t .sp ⟨0x45, .ok, [0x18, 1, 0, 0, 1]⟩ ∧ comp t true
          ∧ t.counters.plant.starts = p.counters.plant.starts + 1)
      ∧ (p.comp.running = true → p.comp.onTimer = .expired → raises (p.table.allocate (p.headroomWith false)) →
        byHand (.manDriveCompOff .sp) p fun t => p.Replied t .sp ⟨0x45, .ok, [0x18, 0, 0, 0, 0]⟩ ∧ comp t false)
      ∧ (p.comp.running = true → (p.trips.inputs.get .cond).active = false →
          raises (p.table.allocate (p.headroomWith false)) →
        byHand (.tripInputChange .cond true) (p.faulted (.trip .cond)) fun t => t.ports = p.ports ∧ comp t false
          ∧ (t.trips.inputs.get .cond).active = true ∧ (p.trips.first = none → t.notedSp .fault)
          ∧ t.counters.plant.supplyTrips = p.counters.plant.supplyTrips + 1)
      ∧ (∀ es : List ConfigEntry, es ≠ [] → es.length ≤ 8 → (es.map ConfigEntry.param).Nodup →
          (∀ e ∈ es, e.param ∈ Param.liveList) →
        let c := p.live.after es
        let names (q : Param) : Prop := q ∈ es.map ConfigEntry.param
        let budgets : Prop := names .budget ∨ names .standing
        let stops : Prop := budgets ∧ p.comp.running = true ∧ c.budget < c.standing + p.table.pComp
        let live : Part := { p with live := c, table := p.table.weighted c }
        let answers (t : Part) : Prop := p.Replied t .sp ⟨0x51, .ok, ConfigEntry.reply es⟩
          ∧ ∀ l, (t.load l).weight = c.weight l
        (budgets ∨ names .w0 ∨ (∃ b, names (.w b)) → ¬ stops →
            raises (live.table.allocate (live.headroomWith p.comp.running)) →
          byHand (.cfgLive .sp (ConfigEntry.args es)) live fun t => answers t ∧ t.comp = p.comp)
        ∧ (stops → raises (live.table.allocate (live.headroomWith false)) →
          byHand (.cfgLive .sp (ConfigEntry.args es)) live fun t => answers t ∧ comp t false))
      ∧ (∀ samples : List Nat, samples ≠ [] →
        let v := meanVolts samples
        let u : Part := { p.allocStarts samples with table := { p.table with vAvg := v } }
        let full (t : Part) : Prop := ∀ l, (t.load l).full = ((p.table.atVolts v).loads.get l).full
        let lift := p.table.unbrowned false v h
        (¬ (p.trips.brownSource = false ∧ 3 ≤ p.trips.lowAfter v) → p.trips.brownSource = false →
            raises ((p.table.atVolts v).allocate h) →
          byHand (.allocatorSecond samples) u fun t => t.ports = p.ports ∧ t.comp = p.comp ∧ t.table.vAvg = v ∧ full t
            ∧ (t.trips.lowRun, t.trips.highRun) = (p.trips.lowAfter v, p.trips.highAfter v)
            ∧ t.trips.brownSource = false)
        ∧ (p.trips.brownSource = true → 5 ≤ p.trips.highAfter v → raises lift ∨ raises ((lift.atVolts v).allocate h) →
          byHand (.allocatorSecond samples) u fun t => t.ports = p.ports ∧ t.comp = p.comp ∧ t.table.vAvg = v ∧ full t
            ∧ t.trips.brownSource = false ∧ t.notedSp .cleared ∧ ∀ b, (t.load (.bay b)).forced = false))
      ∧ ∀ b, (p.port (.bp b)).linkUp = true → p.ServiceLaw → raises ((p.table.driven (.bay b) 0).allocate h) →
        let lost : Part := { p with
          store := p.store.set b ⟨[], 0⟩
          runners := p.runners.set b ⟨.idle, ⟨false, true, true⟩, false, .none, 0, false⟩ }
        byHand (.breakDetected (.bp b)) lost fun t => (t.port (.bp b)).linkUp = false ∧ t.notedSp .link
          ∧ (t.load (.bay b)).manual = some 0 ∧ (t.load (.bay b)).request = 0)

/-! ## The Power Allocator -/

/-- R82: a load that is forced or requests 0 W is granted 0 W, and what its entry says changes no other grant; requests
that sum to at most H are all granted in 0 rounds, with the rest unallocated; no participants leave all of H
unallocated; otherwise the rounds run. -/
def Obligations.AllocationSetsAsideAndFits : Prop :=
  ∀ (t : LoadTable) (h : Nat), let after := t.allocate h
    (∀ l, t.takesPart l = false → (after.loads.get l).grant = 0
      ∧ ∀ e : LoadEntry, e.forced = true ∨ e.request = 0 → ∀ m, m ≠ l →
          (({ t with loads := t.loads.set l e } : LoadTable).allocate h).loads.get m = after.loads.get m)
    ∧ (t.demanded ≤ h → after.rounds = 0 ∧ after.unallocated = h - t.demanded
        ∧ ∀ l, t.takesPart l = true → (after.loads.get l).grant = (t.loads.get l).request)
    ∧ ((∀ l, t.takesPart l = false) → after.rounds = 0 ∧ after.unallocated = h)
    ∧ (h < t.demanded → 1 ≤ after.rounds ∧ after.rounds ≤ 5)

/-- The shares (R83 to R86, R90): a scarce headroom is divided at one share per weight: a load that asks for no more than
its share is granted all of it, every other its share, and the leftover, less than the sum of their weights, goes out
in one ascending pass, at most a load's weight to each. Grants and the unallocated watts make up H; the duty is
1000·g/F, a bay heater that took part below its request is clipped, and a lower duty shortens the period in progress. -/
def Obligations.AllocationSharesByWeight : Prop :=
  ∀ (t : LoadTable) (h : Nat), (∀ l, 0 < (t.loads.get l).weight) →
    let after := t.allocate h
    let g (l : Load) : Nat := (after.loads.get l).grant
    let q (l : Load) : Nat := (t.loads.get l).request
    let w (l : Load) : Nat := (t.loads.get l).weight
    (Load.list.map g).sum + after.unallocated = h ∧ after.headroom = h ∧ after.number = t.number + 1
    ∧ (∀ l, after.loads.get l = { t.loads.get l with
        grant := g l, duty := 1000 * g l / (t.loads.get l).full
        clipped := decide (l ≠ .l0) && t.takesPart l && decide (g l < q l) })
    ∧ (∀ l, after.heat.get l =
        ⟨(t.heat.get l).pos, min (t.heat.get l).onTime (2 * (1000 * g l / (t.loads.get l).full))⟩)
    ∧ (h < t.demanded → ∃ share,
        let fixed := Load.list.filter fun l => t.takesPart l && decide (q l ≤ share * w l)
        let open_ := Load.list.filter fun l => t.takesPart l && decide (share * w l < q l)
        share = (h - (fixed.map q).sum) / (open_.map w).sum ∧ open_ ≠ [] ∧ (fixed.map q).sum ≤ h
        ∧ (∀ l ∈ fixed, g l = q l) ∧ (∀ l ∈ open_, share * w l ≤ g l ∧ g l ≤ q l ∧ g l ≤ share * w l + w l)
        ∧ ∀ l ∈ open_, g l < q l → g l < share * w l + w l → after.unallocated = 0
          ∧ ∀ m ∈ open_, Load.list.idxOf l < Load.list.idxOf m → g m = share * w m)

/-- ALLOCATOR_SECOND where no brownout starts or ends (R72, R73, R92, R151): the mean of the second's samples is the new
average, the runs of low and high averages move on, every full power is renewed at the clamped average, requests above it
are lowered or renewed from a manual duty, and one allocation runs. Where it gives a MANUAL boiler's L0 a duty over an
ACTIVE LOWW input (`Part.NoLowwTrip`), LOWW trips (R149, `Obligations.LowwLatchesWhereItBecomesArmed`). The VSENSE pin
keeps the last sampled level (DESIGN CHOICE, log entry 5). -/
def Obligations.AllocatorSecondRenewsTheFullPowers : Prop :=
  ∀ (s : State) (samples : List Nat), samples ≠ [] →
    let p := s.part.allocStarts samples
    let v := meanVolts samples
    let u := p.trips
    let table := (p.table.atVolts v).allocate (p.headroomWith p.comp.running)
    ¬ (u.brownSource = false ∧ 3 ≤ u.lowAfter v) → ¬ (u.brownSource = true ∧ 5 ≤ u.highAfter v) →
    p.NoLowwTrip table →
    exec (.allocatorSecond samples) s = .next ⟨{ p with
      table := table
      trips := { u with lowRun := u.lowAfter v, highRun := u.highAfter v, armed := p.armedAfter table } }, s.pending⟩

/-- The brownout (R89, R139, R151, R153, R155, R156, R157): the third average below 190 V in a row forces every heater
off and stops a running compressor at once; the fifth of at least 200 V lifts it: the bay heaters are free, L0 too where
no boiler-class trip is latched, and the compressor makes its start test. Where the lift's allocation, or the one with
the full powers renewed, gives a MANUAL boiler's L0 a duty over an ACTIVE LOWW input (`Part.NoLowwTrip`), LOWW trips
(R149, `Obligations.LowwLatchesWhereItBecomesArmed`). The boiler is MANUAL in plant MANUAL alone (`Part.ServiceLaw`). -/
def Obligations.BrownoutForcesAndReleases : Prop :=
  ∀ (s : State) (samples : List Nat), samples ≠ [] → s.part.CompressorLaw → s.part.TripLaw →
    let p := s.part
    let v := meanVolts samples
    let plant := p.counters.plant
    (p.trips.brownSource = false → 3 ≤ p.trips.lowAfter v →
      ∃ t, exec (.allocatorSecond samples) s = .next ⟨t, s.pending⟩
        ∧ t.trips.brownSource = true ∧ t.notedSp .trip ∧ t.table.vAvg = v
        ∧ (∀ l, (t.load l).forced = true ∧ (t.load l).grant = 0 ∧ (t.load l).duty = 0)
        ∧ (∀ l, p.mode = .manual → (p.load l).forced = false → (t.load l).manual = some 0 ∧ (t.load l).request = 0)
        ∧ t.comp = (if p.comp.running then ⟨false, .stopped, .running 180000⟩ else p.comp)
        ∧ t.counters = { p.counters with plant := { plant with mainsTrips := plant.mainsTrips + 1 } }
        ∧ t.trips.latches = p.trips.latches ∧ t.boiler = p.boiler ∧ t.steam = p.steam ∧ t.air = p.air
        ∧ t.store = p.store ∧ t.runners = p.runners ∧ t.mode = p.mode ∧ t.ports = p.ports
        ∧ ({ p with table := { p.table with vAvg := v } } : Part).Recorded t (.trip .brown))
    ∧ (p.trips.brownSource = true → 5 ≤ p.trips.highAfter v →
        (p.boiler.state = .manual → p.mode = .manual) →
        let h := p.headroomWith p.comp.running
        let table := p.table.unbrowned p.trips.latches.any v h
        p.NoLowwTrip table → p.NoLowwTrip ((table.atVolts v).allocate h) →
      ∃ t, exec (.allocatorSecond samples) s = .next ⟨t, s.pending⟩
        ∧ t.trips.brownSource = false ∧ t.notedSp .cleared ∧ t.table.vAvg = v
        ∧ (∀ b, (t.load (.bay b)).forced = false) ∧ (t.load .l0).forced = p.trips.latches.any
        ∧ (∀ l, (t.load l).manual = (p.load l).manual)
        ∧ (({ p with trips := t.trips } : Part).startWaits ∧ p.comp.offTimer = .expired →
            t.comp = ⟨true, .running 60000, .stopped⟩ ∧ t.counters.plant = { plant with starts := plant.starts + 1 })
        ∧ (¬ (({ p with trips := t.trips } : Part).startWaits ∧ p.comp.offTimer = .expired) →
            t.comp = p.comp ∧ t.counters = p.counters)
        ∧ t.trips.first = p.trips.first ∧ t.trips.faultCount = p.trips.faultCount
        ∧ t.trips.latches = p.trips.latches ∧ t.boiler = p.boiler ∧ t.steam = p.steam ∧ t.air = p.air
        ∧ t.store = p.store ∧ t.runners = p.runners ∧ t.mode = p.mode ∧ t.ports = p.ports)

/-! ## Heater outputs, feed pulses, probes and the seconds since reset -/

/-- Four timers and inputs (R87, R99, R104, R105, R107, R146): a heater's period starts with 2 ms of on-time for each
per-mille of its duty; its on-time ends; a feed pulse ends; the Trip Unit's second counts; and a probe's new reading
starts or ends a refill, or ends a fill, also while TANK stands (DESIGN CHOICE, log entry 31). A change to the reading
that stands moves nothing but the pin and the probe's count of differing samples, which starts again from 0 (log entry
4), and a probe pin that reads otherwise takes the reported level (DESIGN CHOICE, log entry 5). The LOWW input is
taken as INACTIVE where a fill ends: an ACTIVE one trips as the boiler goes on to HEATING (R149,
`Obligations.LowwLatchesWhereItBecomesArmed`). -/
def Obligations.TimersAndProbesMoveTheirOwnState : Prop :=
  ∀ (s : State) (l : Load) (wet : Bool), let p := s.part
    let heat := p.table.heat.get l
    let x := p.boiler
    let hot : Prop := x.state = .heating ∨ x.state = .ready ∨ x.state = .keepwarm
    let pin (w : Wire) : Wire := if decide (w = .high) = wet then w else if wet then .high else .low
    exec (.heaterPeriodStart l) s = .next ⟨{ p with table := { p.table with
        heat := p.table.heat.set l ⟨0, 2 * (p.load l).duty⟩ } }, s.pending⟩
    ∧ exec (.heaterOnTimeEnd l) s = .next ⟨{ p with table := { p.table with
        heat := p.table.heat.set l
          (if heat.onTime < 2000 then ⟨max heat.pos heat.onTime, heat.onTime⟩ else heat) } }, s.pending⟩
    ∧ exec .feedPulseEnd s = .next ⟨{ p with boiler := { x with feed := none } }, s.pending⟩
    ∧ exec .tripUnitSecond s = .next ⟨{ p with
        clocks := { p.clocks with trip := 0 }, trips := { p.trips with seconds := p.trips.seconds + 1 } }, s.pending⟩
    ∧ exec (.probeReadingChange .lo wet) s = .next ⟨{ p with
        clocks := { p.clocks with loRun := 0 }, pins := { p.pins with probeLo := pin p.pins.probeLo }
        boiler := if x.loWet = true ∧ wet = false ∧ hot ∧ x.refill = false then
            { x with loWet := false, refill := true, strokes := 0 }
          else { x with loWet := wet } }, s.pending⟩
    ∧ ((x.state = .filling → x.hiWet = false → wet = true → (p.trips.inputs.get .loww).active = false) →
        exec (.probeReadingChange .hi wet) s = .next ⟨{ p with
        clocks := { p.clocks with hiRun := 0 }, pins := { p.pins with probeHi := pin p.pins.probeHi }
        trips := { p.trips with
          armed := if x.hiWet = false ∧ wet = true ∧ x.state = .filling then true else p.trips.armed }
        boiler := if x.hiWet = false ∧ wet = true ∧ x.state = .filling then
            { x with hiWet := true, state := .heating, strokes := 0 }
          else if x.hiWet = false ∧ wet = true ∧ hot ∧ x.refill = true then
            { x with hiWet := true, refill := false, strokes := 0 }
          else { x with hiWet := wet } }, s.pending⟩)

/-! ## The boiler's second -/

/-- BOILER_SECOND, temperatures (R97, R98, R100, R101, R114, R115, R117, R150, R175): T_b is the mean of the samples; out
of −20.0 to 180.0 °C it latches SENSOR; within, a HEATING boiler is READY from T_set − 2.0 °C on, and a STARTING plant
ONLINE with it, where both arbiters make their grant tests: the head of the steam queue is granted a FREE manifold, and its
valve opens at once where R115 lets it. A STALLED holder's valve opens where READY was the last condition missing. A READY
boiler falls to HEATING below T_set − 8.0 °C, and to KEEPWARM when its idle count reaches the delay, and an OPEN
manifold stalls at both. The idle count stops at 3,600 and counts while the delay is 0 (DEDUCED, log entry 12), and where
the drop below T_set − 8.0 °C and the delay fall together the drop goes first (DESIGN CHOICE, log entry 26). LOWW is
armed as R149 has it (`Part.ArmingLaw`), and the stroke limit (R106) is not reached. -/
def Obligations.BoilerSecondMovesTheBoilerByTemperature : Prop :=
  ∀ (s : State) (samples : List Int), samples ≠ [] → s.part.ArmingLaw →
    s.part.boiler.strokes < s.part.live.strokeLimit → s.part.TripLaw →
    let p := s.part
    let x := p.boiler
    let tb := meanTenths samples
    let out : Prop := tb < -200 ∨ 1800 < tb
    let tSet : Int := p.live.tSet
    let idle := if p.steam.queue = [] ∧ p.steam.holder = .none then min 3600 (x.idle + 1) else 0
    let cools : Prop := 0 < p.live.keepDelay ∧ p.live.keepDelay ≤ idle
    let stalls (a : Steam) : Prop := a = (match p.steam.manifold, p.steam.holder with
      | .open, .auto _ => { p.steam with
          manifold := .stalled
          purge := if p.live.purgeGap = 0 then p.steam.purge
            else some (max (p.steam.purge.getD 0) (p.live.purgeGap * 1000)) }
      | _, _ => p.steam)
    ∃ t, exec (.boilerSecond samples) s = .next ⟨t, s.pending⟩ ∧ t.boiler.tb = tb
      ∧ t.clocks.boiler = 0 ∧ t.store = p.store ∧ t.runners = p.runners ∧ t.live = p.live ∧ t.ports = p.ports
      ∧ (out ↔ t.trips.sensorSource = true)
      ∧ (out → p.trips.sensorSource = false → t.trips.latches.sensor = true ∧ t.boiler.state = .locked ∧ t.notedSp .trip
          ∧ t.counters.plant.boilerTrips = p.counters.plant.boilerTrips + 1)
      ∧ (¬ out → t.trips.latches = p.trips.latches ∧ t.counters.plant.boilerTrips = p.counters.plant.boilerTrips)
      ∧ (¬ out → x.state = .heating → tSet - 20 ≤ tb → t.boiler.state = .ready ∧ t.boiler.idle = 0
          ∧ t.mode = (if p.mode = .starting then .online else p.mode) ∧ (p.mode = .starting → t.notedSp .mode)
          ∧ (p.mode = .starting → p.steam.manifold = .free →
              ({ p with mode := .online, boiler := { x with state := .ready } } : Part).SteamGrants p.steam.queue t.steam)
          ∧ (p.mode = .starting ∨ p.mode = .online → p.steam.manifold = .stalled → ∀ b, p.steam.holder = .auto b →
              t.steam = { p.steam with
                manifold := if p.steam.purge = none ∧ (p.runner b).shut = true then .open else .stalled })
          ∧ (p.steam.manifold = .open ∨ p.steam.manifold = .purge ∨ (p.mode ≠ .starting ∧ p.steam.manifold = .free)
              ∨ (p.mode ≠ .starting ∧ p.mode ≠ .online) → t.steam = p.steam)
          ∧ (p.mode = .starting → p.AirGrants p.air.queue p.air.holders t.air)
          ∧ (p.mode ≠ .starting → t.air = p.air ∧ t.comp = p.comp))
      ∧ (¬ out → x.state = .heating → tb < tSet - 20 →
          t.boiler.state = .heating ∧ t.mode = p.mode ∧ t.steam = p.steam ∧ t.air = p.air)
      ∧ (¬ out → x.state = .ready → tb < tSet - 80 →
          t.boiler.state = .heating ∧ t.boiler.idle = x.idle ∧ stalls t.steam)
      ∧ (¬ out → x.state = .ready → tSet - 80 ≤ tb → cools →
          t.boiler.state = .keepwarm ∧ t.boiler.idle = idle ∧ stalls t.steam)
      ∧ (¬ out → x.state = .ready → tSet - 80 ≤ tb → ¬ cools →
          t.boiler.state = .ready ∧ t.boiler.idle = idle ∧ t.steam = p.steam)
      ∧ (¬ out → x.state ≠ .heating → x.state ≠ .ready →
          t.boiler.state = x.state ∧ t.boiler.idle = x.idle ∧ t.steam = p.steam ∧ t.mode = p.mode)

/-- BOILER_SECOND, request and energy (R75, R109, R110): the loop's request by the state in which the tests and the
strokes left the boiler; in plant MANUAL none is taken. The heater's watt-seconds go through the carry into whole
watt-hours; they are of the duty after the delivery (DEDUCED, log entry 10). -/
def Obligations.BoilerSecondDeliversAndAccounts : Prop :=
  ∀ (s : State) (samples : List Int), samples ≠ [] → ∃ t, exec (.boilerSecond samples) s = .next ⟨t, s.pending⟩
    ∧ (let l0 := t.load .l0
       let loop (setpoint : Int) : Nat :=
         if t.steam.manifold = .open then l0.full
         else (max 0 (min (l0.full : Int) (t.live.kb * (setpoint - t.boiler.tb)))).toNat
       let acc := s.part.boiler.carry + l0.draw
       t.boiler.carry = acc % 3600
       ∧ t.counters.plant.heaterWh = s.part.counters.plant.heaterWh + BitVec.ofNat 32 (acc / 3600)
       ∧ l0.full = (s.part.load .l0).full
       ∧ (t.mode ≠ .manual → t.boiler.state ≠ .manual →
           l0.request = (match t.boiler.state with
             | .heating | .ready => loop t.live.tSet
             | .keepwarm => loop (min (t.live.tKeep : Int) ((t.live.tSet : Int) - 100))
             | .cold | .filling | .locked | .manual => 0)
           ∧ t.table.headroom = t.headroomWith t.comp.running)
       ∧ (s.part.mode = .manual → s.part.boiler.state = .manual →
           ¬ (meanTenths samples < -200 ∨ 1800 < meanTenths samples) → t.table = s.part.table))

/-- BOILER_SECOND, feed water (R105 to R108, R152): a stroke is a 400 ms pulse, counted; an automatic one is given where
water is wanted, the level is not full, TANK is INACTIVE and the count is below the limit, and at the limit the FEED trip
latches instead; a refill found full ends, also while TANK stands (DESIGN CHOICE, log entry 31); a MANUAL boiler gives its
outstanding strokes. LOWW is armed as R149 has it (`Part.ArmingLaw`). -/
def Obligations.BoilerSecondGivesFeedStrokes : Prop :=
  ∀ (s : State) (samples : List Int), samples ≠ [] → s.part.ArmingLaw →
    ¬ (meanTenths samples < -200 ∨ 1800 < meanTenths samples) → s.part.TripLaw →
    let p := s.part
    let x := p.boiler
    let hot : Prop := x.state = .heating ∨ x.state = .ready ∨ x.state = .keepwarm
    let wanted : Prop := x.state = .filling ∧ x.hiWet = false ∨ hot ∧ x.refill = true
    let tank := (p.trips.inputs.get .tank).active
    let given := p.counters.plant.strokes
    ∃ t, exec (.boilerSecond samples) s = .next ⟨t, s.pending⟩ ∧ t.boiler.hiWet = x.hiWet ∧ t.boiler.loWet = x.loWet
      ∧ (wanted → x.hiWet = false → tank = false → x.strokes < p.live.strokeLimit →
          t.boiler.strokes = x.strokes + 1 ∧ t.boiler.feed = some 400 ∧ t.boiler.refill = x.refill
          ∧ t.counters.plant.strokes = given + 1)
      ∧ (wanted → x.hiWet = false → tank = false → p.live.strokeLimit ≤ x.strokes →
          t.trips.latches.feed = true ∧ t.boiler.state = .locked ∧ t.boiler.strokes = 0 ∧ t.boiler.feed = none
          ∧ t.counters.plant.strokes = given ∧ t.notedSp .trip)
      ∧ (wanted → x.hiWet = true → t.boiler.refill = false ∧ t.boiler.strokes = 0 ∧ t.boiler.feed = x.feed
          ∧ t.counters.plant.strokes = given)
      ∧ (¬ wanted ∨ x.hiWet = false ∧ tank = true → x.state ≠ .manual →
          t.boiler.strokes = x.strokes ∧ t.boiler.refill = x.refill ∧ t.boiler.feed = x.feed
          ∧ t.counters.plant.strokes = given)
      ∧ (x.state = .manual → 0 < x.manualStrokes → tank = false →
          t.boiler.manualStrokes = x.manualStrokes - 1 ∧ t.boiler.feed = some 400
          ∧ t.counters.plant.strokes = given + 1)
      ∧ (x.state = .manual → x.manualStrokes = 0 ∨ tank = true →
          t.boiler.manualStrokes = x.manualStrokes ∧ t.boiler.feed = x.feed ∧ t.counters.plant.strokes = given)

/-! ## The manifold -/

/-- METERING_SECOND (R60, R62, R125, R126): an OPEN automatic holder's record is credited floor((carry + P0·Y)/3600) mg;
a dose reached ends the record COMPLETE, a burst reached passes it to AIRING, and either way the holder leaves with a
purge and the next demand is placed after it (R65, R119, `Part.Redemanded`; log entry 27). Any other manifold credits
nothing. -/
def Obligations.MeteringCreditsTheHolder : Prop :=
  ∀ (s : State) (b : Bay) (r : Record) (w : Work), s.part.ServiceLaw →
    let p := s.part
    let acc := w.steamCarry + (p.load .l0).draw * p.steam.yield
    let mg := acc / 3600
    let sum (n : Nat) : Nat := min 4294967295 (n + mg)
    let credited : Record := match r.body with
      | .steam d l m => { r with body := .steam d l (sum m), phase := .current { w with steamCarry := acc % 3600 } }
      | .refresh g n a tt l m k h => { r with
          body := .refresh g n a tt l (sum m) k h
          phase := .current { w with burstMg := sum w.burstMg, steamCarry := acc % 3600 } }
      | _ => r
    let c := p.bayCounters b
    let u := (({ p with clocks := { p.clocks with metering := 0 } } : Part).setList b
      (withCurrent (p.list b) credited)).setBayCounters b { c with steamMg := c.steamMg + BitVec.ofNat 32 mg }
    (p.steam.manifold ≠ .open ∨ (∀ h, p.steam.holder ≠ .auto h) → exec .meteringSecond s =
      .next ⟨{ p with clocks := { p.clocks with metering := 0 } }, s.pending⟩)
    ∧ (p.steam.manifold = .open → p.steam.holder = .auto b → p.current b = some (r, w) →
        match r.body with
        | .steam d _ m =>
          (sum m < d * 1000 → exec .meteringSecond s = .next ⟨u, s.pending⟩)
          ∧ (d * 1000 ≤ sum m → ∃ t, exec .meteringSecond s = .next ⟨t, s.pending⟩ ∧ u.MovedOn b credited .complete t
              ∧ u.Redemanded t b
              ∧ (0 < p.live.purgeGap → t.steam.valveOpen b = false ∧ t.steam.holder ≠ .auto b) ∧ u.SameElsewhere t b)
        | .refresh g n a tt l m k h =>
          (sum w.burstMg < g * 1000 → exec .meteringSecond s = .next ⟨u, s.pending⟩)
          ∧ (g * 1000 ≤ sum w.burstMg → ∃ t, exec .meteringSecond s = .next ⟨t, s.pending⟩
              ∧ t.list b = withCurrent (p.list b) { r with
                  body := .refresh g n a tt l (sum m) (min n (k + 1)) h
                  phase := .current ⟨.airing, sum w.burstMg, 0, acc % 3600, w.heatCarry⟩ }
              ∧ (t.runner b).state = .running ∧ (t.runner b).demand = .air tt ∧ ¬ t.claimsSteam b ∧ t.claimsAir b
              ∧ u.Redemanded t b
              ∧ u.SameElsewhere t b)
        | _ => False)

/-- SLICE_EXPIRY (R114, R118, R120): with bays waiting, an OPEN automatic holder goes to the tail of the queue behind a
purge, or with a gap of 0 the head of the queue is granted at once; with none waiting its slice starts again. An expiry
of a slice that does not run changes nothing (log entry 4). -/
def Obligations.SliceExpiryRotatesTheManifold : Prop :=
  ∀ (s : State) (b : Bay), let p := s.part
    let a := p.steam
    let slice := some (p.live.slice * 1000)
    let runs : Prop := a.manifold = .open ∧ a.holder = .auto b ∧ a.slice.isSome = true
    ((a.manifold ≠ .open ∨ (∀ h, a.holder ≠ .auto h) ∨ a.slice = none) → exec .sliceExpiry s = .next s)
    ∧ (runs → a.queue = [] → exec .sliceExpiry s = .next ⟨{ p with steam := { a with slice := slice } }, s.pending⟩)
    ∧ (runs → a.queue ≠ [] → 0 < p.live.purgeGap → a.purge = none → exec .sliceExpiry s = .next ⟨{ p with
        steam := ⟨a.queue ++ [b], .none, .purge, none, some (p.live.purgeGap * 1000), a.yield⟩ }, s.pending⟩)
    ∧ (runs → p.live.purgeGap = 0 → a.purge = none → p.mode = .online → p.trips.latches.any = false →
        ∀ c, a.queue.head? = some c → exec .sliceExpiry s = .next ⟨{ p with
          steam := ⟨a.queue.tail ++ [b], .auto c,
            if p.boiler.state = .ready ∧ (p.runner c).shut = true then .open else .stalled, slice, none, a.yield⟩ },
          s.pending⟩)

/-- PURGE_END (R114, R115, R117, R120, R180): a PURGE manifold becomes FREE and the head of the queue is granted it
where the plant is ONLINE with no boiler-class trip latched; one that stays FREE completes a MANUAL_PENDING beside a
stopped compressor, with the boiler's entry to MANUAL (R103, R107; `Boiler.entered`) and every heater at a manual duty
of 0 (R92); a STALLED holder's valve opens where nothing else is missing; FREE and OPEN stay as they are. An end of a
timer that does not run changes nothing (log entry 4). -/
def Obligations.PurgeEndFreesTheLine : Prop :=
  ∀ (s : State) (b : Bay), let p := s.part
    let a := p.steam
    let grants : Prop := a.queue ≠ [] ∧ p.mode = .online ∧ p.trips.latches.any = false
    let opens (c : Bay) : Prop := p.boiler.state = .ready ∧ p.mode = .online ∧ p.trips.latches.any = false
      ∧ (p.runner c).shut = true
    let with_ (x : Steam) : Host.Outcome State Fault Refusal := .next ⟨{ p with steam := x }, s.pending⟩
    (a.purge = none → exec .purgeEnd s = .next s)
    ∧ (a.purge ≠ none → a.manifold = .purge → ¬ grants → p.mode ≠ .manualPending ∨ p.comp.running = true →
        exec .purgeEnd s = with_ { a with purge := none, manifold := .free })
    ∧ (a.purge ≠ none → a.manifold = .purge → p.mode = .manualPending → p.comp.running = false →
        ∃ t, exec .purgeEnd s = .next ⟨t, s.pending⟩ ∧ t.mode = .manual ∧ t.notedSp .mode
          ∧ t.steam = { a with purge := none, manifold := .free }
          ∧ t.boiler = p.boiler.goneManual ∧ (∀ l, (t.load l).manual = some 0 ∧ t.idleLoad l)
          ∧ t.store = p.store ∧ t.runners = p.runners ∧ t.air = p.air ∧ t.comp = p.comp ∧ t.counters = p.counters)
    ∧ (a.purge ≠ none → a.manifold = .purge → grants → a.queue.head? = some b →
        exec .purgeEnd s = with_ ⟨a.queue.tail, .auto b, if opens b then .open else .stalled,
          some (p.live.slice * 1000), none, a.yield⟩)
    ∧ (a.purge ≠ none → a.manifold = .stalled → a.holder = .auto b →
        exec .purgeEnd s = with_ { a with purge := none, manifold := if opens b then .open else .stalled })
    ∧ (a.purge ≠ none → a.manifold = .free ∨ a.manifold = .open → exec .purgeEnd s = with_ { a with purge := none })

/-! ## Air Service -/

/-- HOLD_EXPIRY (R131, R132): with no bay waiting each expired hold starts anew; otherwise the holders whose holds expired
go to the tail of the queue in grant order, their heater requests 0, and the head of the queue is granted up to C. That a
rotation which empties and refills the holder set leaves the compressor RUNNING is the model's reading: R133's empty set
is judged after the grant test (DEDUCED, log entry 11). Holds run only beside a RUNNING compressor, and none else expires
(DESIGN CHOICE, log entry 4). The boiler is MANUAL in plant MANUAL alone (`Part.ServiceLaw`), so no allocation here arms
LOWW. -/
def Obligations.HoldExpiryRotatesTheHolders : Prop :=
  ∀ (s : State) (bays : List Bay), let p := s.part
    let a := p.air
    let ending := (a.holders.map AirHolder.bay).filter fun b => b ∈ bays
    let kept := a.holders.filter fun h => h.bay ∉ bays
    let queue := a.queue ++ ending
    let n := p.live.capacity - kept.length
    (p.comp.running = false ∨ ending = [] → exec (.holdExpiry bays) s = .next s)
    ∧ (p.comp.running = true → ending ≠ [] → a.queue = [] → p.ServiceLaw → exec (.holdExpiry bays) s = .next ⟨{ p with
        air := { a with
          holders := a.holders.map fun h => if h.bay ∈ bays then ⟨h.bay, 0, p.live.airSlice⟩ else h } }, s.pending⟩)
    ∧ (p.comp.running = true → ending ≠ [] → a.queue ≠ [] → p.ServiceLaw → p.DamperLaw →
        ∃ t, exec (.holdExpiry bays) s = .next ⟨t, s.pending⟩
          ∧ t.air = { a with
              queue := queue.drop n, holders := kept ++ (queue.take n).map fun b => ⟨b, 0, p.live.airSlice⟩ }
          ∧ (∀ b ∈ ending, (t.load (.bay b)).request = 0 ∧ (t.load (.bay b)).grant = 0)
          ∧ t.comp = p.comp ∧ t.steam = p.steam ∧ t.store = p.store ∧ t.runners = p.runners ∧ t.mode = p.mode
          ∧ t.counters = p.counters ∧ t.notices = p.notices ∧ t.live = p.live)

/-- The compressor's timers (R79, R131, R136 to R138): its second counts while it is RUNNING and is a start test while it
is STOPPED; the off timer's expiry is followed by a start test, the on timer's by a stop test. An expiry of a timer that
does not run changes nothing (log entry 4). The compressor starts and stops of its own accord in STARTING and ONLINE
alone, where the boiler is not MANUAL (`Part.ServiceLaw`), so no allocation here arms LOWW. -/
def Obligations.CompressorTimersStartAndStop : Prop :=
  ∀ (s : State), (s.part.boiler.state = .manual → s.part.mode = .manual) →
    let p := s.part
    let second : Part := { p with clocks := { p.clocks with comp := 0 } }
    let plant := p.counters.plant
    let offEnded : Part := { p with comp := { p.comp with offTimer := .expired } }
    let onEnded : Part := { p with comp := { p.comp with onTimer := .expired } }
    let auto : Prop := p.mode = .starting ∨ p.mode = .online
    let after (c : Instr) (t : Part) : Prop := exec c s = .next ⟨t, s.pending⟩
    (p.comp.running = true → after .compressorSecond { second with
      counters := { p.counters with plant := { plant with runSeconds := plant.runSeconds + 1 } } })
    ∧ (p.comp.running = false → p.startWaits → p.comp.offTimer = .expired → after .compressorSecond second.withCompOn)
    ∧ (p.comp.running = false → ¬ (p.startWaits ∧ p.comp.offTimer = .expired) → after .compressorSecond second)
    ∧ ((p.comp.offTimer = .stopped ∨ p.comp.offTimer = .expired) → after .offTimerExpiry p)
    ∧ (∀ n, p.comp.offTimer = .running n → p.comp.running = false → p.startWaits →
        after .offTimerExpiry offEnded.withCompOn)
    ∧ (∀ n, p.comp.offTimer = .running n → p.comp.running = true ∨ ¬ p.startWaits → after .offTimerExpiry offEnded)
    ∧ ((p.comp.onTimer = .stopped ∨ p.comp.onTimer = .expired) → after .onTimerExpiry p)
    ∧ (∀ n, p.comp.onTimer = .running n → p.comp.running = true → auto → p.air.holders = [] →
        after .onTimerExpiry onEnded.withCompOff)
    ∧ (∀ n, p.comp.onTimer = .running n → ¬ (p.comp.running = true ∧ auto ∧ p.air.holders = []) →
        after .onTimerExpiry onEnded)

/-- AIR_LOOP_SECOND (R75, R91, R141 to R144, R156, R157): T_air is the mean of the samples and a fault outside −20.0 to
120.0 °C, recorded as it begins; the heater's energy of the second goes to the bay's counter and to the record it
serves; and a holder's loop requests K_a·(target − T_air) within its full power, any other 0. A delivery that its own
allocation clips counts one clipped second. In plant MANUAL none is taken, and the boiler is MANUAL there alone
(`Part.ServiceLaw`), so no allocation here arms LOWW. -/
def Obligations.AirLoopSecondHeatsTheHolder : Prop :=
  ∀ (s : State) (b : Bay) (samples : List Int), samples ≠ [] → s.part.ServiceLaw →
    let p := s.part
    let e := p.load (.bay b)
    let c := p.bayCounters b
    let tAir := meanTenths samples
    let bad : Bool := decide (tAir < -200 ∨ 1200 < tAir)
    let acc := (p.loop b).carry + e.draw
    let target : Int := match (p.runner b).demand with
      | .air x => x
      | _ => 0
    let q := if b ∈ p.air.holders.map AirHolder.bay ∧ 0 < e.rating ∧ bad = false then
        (max 0 (min (e.full : Int) (p.live.ka * (target - tAir)))).toNat
      else 0
    ∃ t, exec (.airLoopSecond b samples) s = .next ⟨t, s.pending⟩
      ∧ t.loop b = ⟨tAir, bad, acc % 3600⟩ ∧ (∀ d, d ≠ b → t.loop d = p.loop d) ∧ t.clocks.loops.get b = 0
      ∧ (bad = true → (p.loop b).fault = false → p.Recorded t (.airSensor b))
      ∧ (bad = false ∨ (p.loop b).fault = true → t.trips.first = p.trips.first
          ∧ t.trips.faultCount = p.trips.faultCount ∧ t.notices = p.notices)
      ∧ t.list b = (p.list b).map (fun r => match r.phase with
          | .current w =>
            if (p.runner b).state = .running then
              let sum := w.heatCarry + e.draw
              let wh (n : Nat) : Nat := min 65535 (n + sum / 3600)
              match r.body with
              | .dry x d h => { r with body := .dry x d (wh h), phase := .current { w with heatCarry := sum % 3600 } }
              | .refresh g n a x l m k h => { r with
                  body := .refresh g n a x l m k (wh h), phase := .current { w with heatCarry := sum % 3600 } }
              | _ => r
            else r
          | _ => r)
      ∧ (∀ d, d ≠ b → t.store.get d = p.store.get d) ∧ t.runners = p.runners ∧ t.air = p.air ∧ t.steam = p.steam
      ∧ t.comp = p.comp ∧ t.boiler = p.boiler ∧ t.mode = p.mode ∧ t.counters.plant = p.counters.plant
      ∧ (t.bayCounters b).heaterWh = c.heaterWh + BitVec.ofNat 32 (acc / 3600)
      ∧ (p.mode = .manual → t.table = p.table ∧ (t.bayCounters b).clipped = c.clipped)
      ∧ (p.mode ≠ .manual →
          t.table = ({ p.table with
            loads := p.table.loads.set (.bay b) { e with request := q } } : LoadTable).allocate
              (p.headroomWith p.comp.running)
          ∧ (t.bayCounters b).clipped = c.clipped + (if (t.load (.bay b)).clipped then 1 else 0))

/-! ## The Trip Unit's inputs -/

/-- TRIP_INPUT_CHANGE of OVP, OVT and LOWW (R147 to R149, R152, R155 to R157): an input that becomes ACTIVE, LOWW's where
it is armed, latches its trip; the first latch locks the boiler and releases the manifold, a further one stands beside
it, and one that is latched already is only counted and recorded; the input's return clears no latch. A change to the
debounced state that stands moves the pin alone, and a pin that reads otherwise takes the reported level (DESIGN CHOICE,
log entries 4 and 5). -/
def Obligations.BoilerTripInputsLatchAndLock : Prop :=
  ∀ (s : State) (i : TripInput), i = .ovp ∨ i = .ovt ∨ i = .loww → s.part.TripLaw →
    let p := s.part
    let trip : Trip := match i with
      | .ovp => .ovp
      | .ovt => .ovt
      | _ => .loww
    let pin (i : TripInput) (active : Bool) : Wire :=
      if decide (p.pins.trips.get i ≠ .low) = active then p.pins.trips.get i else if active then .high else .low
    let moved (active : Bool) : Part := { p with
      pins := { p.pins with trips := p.pins.trips.set i (pin i active) }
      trips := { p.trips with inputs := p.trips.inputs.set i ⟨active, 0⟩ } }
    let trips : Prop := (p.trips.inputs.get i).active = false ∧ (i = .loww → p.trips.armed = true)
    let plant := p.counters.plant
    (∀ active, (p.trips.inputs.get i).active = active → exec (.tripInputChange i active) s = .next ⟨{ p with
      pins := { p.pins with trips := p.pins.trips.set i (pin i active) } }, s.pending⟩)
    ∧ ((p.trips.inputs.get i).active = true → exec (.tripInputChange i false) s = .next ⟨moved false, s.pending⟩)
    ∧ (i = .loww → (p.trips.inputs.get i).active = false → p.trips.armed = false →
        exec (.tripInputChange i true) s = .next ⟨moved true, s.pending⟩)
    ∧ (trips → ∃ t, exec (.tripInputChange i true) s = .next ⟨t, s.pending⟩
        ∧ t.trips.latches = p.trips.latches.latch trip ∧ t.trips.inputs = (moved true).trips.inputs
        ∧ t.notedSp .trip ∧ p.Recorded t (.trip trip)
        ∧ t.counters = { p.counters with plant := { plant with boilerTrips := plant.boilerTrips + 1 } }
        ∧ t.store = p.store ∧ t.runners = p.runners ∧ t.air = p.air ∧ t.comp = p.comp ∧ t.ports = p.ports
        ∧ (p.trips.latches.get trip = false → ∀ b, (p.runner b).state ≠ .idle → t.noted b .plant)
        ∧ (p.trips.latches.get trip = true → t.notices.bays = p.notices.bays)
        ∧ (p.trips.latches.any = true → t.boiler = p.boiler ∧ t.steam = p.steam ∧ t.table = p.table ∧ t.mode = p.mode)
        ∧ (p.trips.latches.any = false → p.LockedOut t
            ∧ (p.steam.manifold = .open → 0 < p.live.purgeGap → p.steam.purge = none →
                t.steam.purge = some (p.live.purgeGap * 1000))
            ∧ (p.steam.manifold ≠ .open → t.steam.purge = p.steam.purge)
            ∧ t.mode = (if p.mode = .manualPending ∧ p.steam.manifold ≠ .free ∧ p.comp.running = false then .manual
                else p.mode)))

/-- TRIP_INPUT_CHANGE of TANK and COND (R137, R139, R147, R148, R153, R155 to R157): each acts while its input is ACTIVE
and clears by itself. TANK ends the feed pulse; COND stops a RUNNING compressor, and its clearing makes a start test,
which starts none in plant MANUAL, where alone the boiler is MANUAL (`Part.ServiceLaw`). Where the allocation of a stop
gives a MANUAL boiler's L0 a duty over an ACTIVE LOWW input (`Part.NoLowwTrip`), LOWW trips (R149,
`Obligations.LowwLatchesWhereItBecomesArmed`). A change to the debounced state that stands moves the pin alone, and a pin
that reads otherwise takes the reported level (DESIGN CHOICE, log entries 4 and 5). -/
def Obligations.SupplyTripInputsActAndClear : Prop :=
  ∀ (s : State), s.part.CompressorLaw →
    let p := s.part
    let pin (i : TripInput) (active : Bool) : Wire :=
      if decide (p.pins.trips.get i ≠ .low) = active then p.pins.trips.get i else if active then .high else .low
    let moved (i : TripInput) (active : Bool) : Part := { p with
      pins := { p.pins with trips := p.pins.trips.set i (pin i active) }
      trips := { p.trips with inputs := p.trips.inputs.set i ⟨active, 0⟩ } }
    let cleared (x : Part) : Part := { x with
      notices := { x.notices with sp := { x.notices.sp with flags := x.notices.sp.flags ||| 0x02 } } }
    let plant := p.counters.plant
    let counted : Counters := { p.counters with plant := { plant with supplyTrips := plant.supplyTrips + 1 } }
    (∀ i, i = .tank ∨ i = .cond → ∀ active, (p.trips.inputs.get i).active = active →
      exec (.tripInputChange i active) s = .next ⟨{ p with
        pins := { p.pins with trips := p.pins.trips.set i (pin i active) } }, s.pending⟩)
    ∧ ((p.trips.inputs.get .tank).active = false → ∃ t, exec (.tripInputChange .tank true) s = .next ⟨t, s.pending⟩
        ∧ t.boiler = { p.boiler with feed := none } ∧ t.counters = counted ∧ t.notedSp .trip
        ∧ p.Recorded t (.trip .tank) ∧ t.trips.inputs = (moved .tank true).trips.inputs
        ∧ t.trips.latches = p.trips.latches ∧ t.table = p.table ∧ t.steam = p.steam ∧ t.comp = p.comp
        ∧ t.air = p.air ∧ t.store = p.store ∧ t.runners = p.runners ∧ t.mode = p.mode)
    ∧ ((p.trips.inputs.get .tank).active = true →
        exec (.tripInputChange .tank false) s = .next ⟨cleared (moved .tank false), s.pending⟩)
    ∧ ((p.trips.inputs.get .cond).active = false →
        (p.comp.running = true → p.NoLowwTrip (p.table.allocate (p.headroomWith false))) →
        ∃ t, exec (.tripInputChange .cond true) s = .next ⟨t, s.pending⟩
        ∧ t.comp = (if p.comp.running then ⟨false, .stopped, .running 180000⟩ else p.comp)
        ∧ t.table = (if p.comp.running then p.table.allocate (p.headroomWith false) else p.table)
        ∧ t.counters = counted ∧ t.notedSp .trip ∧ p.Recorded t (.trip .cond)
        ∧ t.trips.inputs = (moved .cond true).trips.inputs ∧ t.trips.latches = p.trips.latches
        ∧ t.boiler = p.boiler ∧ t.steam = p.steam ∧ t.air = p.air ∧ t.store = p.store ∧ t.runners = p.runners
        ∧ t.mode = p.mode)
    ∧ ((p.trips.inputs.get .cond).active = true → let u := cleared (moved .cond false)
        (u.startWaits → p.comp.offTimer = .expired → (p.boiler.state = .manual → p.mode = .manual) →
          exec (.tripInputChange .cond false) s = .next ⟨u.withCompOn, s.pending⟩)
        ∧ (¬ (u.startWaits ∧ p.comp.offTimer = .expired) →
          exec (.tripInputChange .cond false) s = .next ⟨u, s.pending⟩))

/-! ## What holds in every state -/

/-- Every step keeps the law of the ports (R4, R7, R8): at most two entries wait on a port, none without a reply in
transmission, and a message in assembly carries the sum of what it has received. -/
def Obligations.EveryStepKeepsThePortLaw : Prop :=
  ∀ (s t : State), s.part.PortLaw → step s = .next t → t.part.PortLaw

/-- Every step keeps the laws of the Phase Store (R24 to R26) and of the cause sets (R42 to R44). -/
def Obligations.EveryStepKeepsTheStoreAndCauseLaws : Prop :=
  ∀ (s t : State), step s = .next t →
    (s.part.StoreLaw → t.part.StoreLaw) ∧ (s.part.CauseLaw → t.part.CauseLaw)

/-- Every step keeps what the trips lock and force (R82, R89, R102, R152), LOWW's arming and that its input is
INACTIVE while it is armed (R149), the compressor's law (R136 to R139) and the dampers' (R134, R135): LOCKED exactly
while a boiler-class trip is latched, a forced load without grant and duty, no compressor running under COND or BROWN,
and outside plant MANUAL no more dampers open than C. After every stop the compressor rests at least 180 s (R138): a
step that stops it, a power-on reset among them, leaves the off timer 180 s to run; no step but the passing of a
millisecond shortens that time, none but the off timer's expiry ends it, and none but that expiry starts a compressor
before its end. -/
def Obligations.EveryStepKeepsTheTripCompressorAndDamperLaws : Prop :=
  ∀ (s t : State), step s = .next t →
    let expires : Prop := ∃ rest, s.pending = .offTimerExpiry :: rest
    (s.part.TripLaw → t.part.TripLaw) ∧ (s.part.CompressorLaw → t.part.CompressorLaw)
    ∧ (s.part.ArmingLaw → t.part.ArmingLaw)
    ∧ (s.part.TripLaw → s.part.ArmingLaw → s.part.LowwLaw → t.part.LowwLaw)
    ∧ (s.part.comp.running = false → t.part.comp.running = true → s.part.comp.offTimer = .expired ∨ expires)
    ∧ (s.part.comp.running = true → t.part.comp.running = false → t.part.comp.offTimer = .running 180000)
    ∧ (∀ n, s.part.comp.offTimer = .running n → expires ∨ t.part.comp.offTimer = .running 180000
        ∨ t.part.comp.offTimer = .running n ∨ (s.pending = [] ∧ t.part.comp.offTimer = .running (n - 1)))
    ∧ (s.part.DamperLaw → t.part.DamperLaw ∧ (t.part.mode ≠ .manual → t.part.openDampers ≤ t.part.live.capacity))

/-- Every step keeps the law of the device (R85): the standing load, P_comp while the compressor runs, and the grants are
within B, and no heater draws more than its grant; with it the weight of every load is the live one (R70, R94). -/
def Obligations.EveryStepKeepsTheBudgetLaw : Prop :=
  ∀ (s t : State), s.part.BudgetLaw → step s = .next t → t.part.BudgetLaw

/-- Every step keeps the laws of the arbiters and of the manifold (R64 to R66, R112, R113, R115, R116, R123, R130):
each holds exactly the bays with a demand of its kind, and no valve is open that a trip, a closure, a purge or the
boiler forbids. With them the boiler is MANUAL in plant MANUAL alone (R98, R103), and nothing that may be granted
waits (`Part.GrantLaw`: R114, R117, R131), and outside plant MANUAL a bay heater requests or draws something only
while its bay is an air holder (`Part.HeatLaw`: R65, R66, R92, R93). Between the closing of one valve and the opening
of any the purge gap passes (R116), a power-on reset apart: a step that closes a valve, and one by which a STALLED
holder leaves without a trip, starts the purge timer with the live gap, and the timer runs on to the later end. No
step but the passing of a millisecond and PURGE_END shortens or ends it, none but such a start lengthens it, and no
valve opens while it runs. The gap is the one in force at the closing: in plant MANUAL, where a CFG_LIVE or a restart
sets the live values before it closes a valve, the one after the step, and elsewhere the one before it (R116, R177).
-/
def Obligations.EveryStepKeepsTheServiceAndValveLaws : Prop :=
  ∀ (s t : State), s.part.ServiceLaw → s.part.steam.Law → s.part.ValveLaw → step s = .next t →
    let a := s.part.steam
    let x := t.part.steam
    let gap := if s.part.mode = .manual then t.part.live.purgeGap else s.part.live.purgeGap
    let resets : Prop := ∃ edge rest, s.pending = .powerOnReset edge :: rest
    let ends : Prop := ∃ rest, s.pending = .purgeEnd :: rest
    t.part.ServiceLaw ∧ t.part.steam.Law ∧ t.part.ValveLaw
    ∧ (s.part.TripLaw → s.part.GrantLaw → t.part.GrantLaw) ∧ (s.part.HeatLaw → t.part.HeatLaw)
    ∧ (¬ resets →
      (∀ b, a.valveOpen b = true → x.valveOpen b = false → x.purge = a.purgeFrom gap)
      ∧ (∀ b, a.manifold = .stalled → a.holder = .auto b → x.holder ≠ .auto b → t.part.trips.latches.any = false →
          x.purge = a.purgeFrom gap)
      ∧ (s.pending ≠ [] → ¬ ends → x.purge = a.purge ∨ x.purge = a.purgeFrom gap)
      ∧ (ends → x.purge = none)
      ∧ (s.pending = [] → x.purge = a.purge.map (· - 1) ∨ (s.part.held = true ∧ x.purge = a.purge))
      ∧ (∀ b, a.valveOpen b = false → x.valveOpen b = true → a.purge = none ∨ ends)
      ∧ ∀ b c, b ≠ c → a.valveOpen b = true → x.valveOpen c = true → gap = 0)
end

