-- ==== Sys2Proof/Laws/State.lean ====
section
/-! SUPPORT. Sys2Proof/Laws/State.lean: for each named write of the state, one lemma per field, and what a read of an
indexed part gives after a write of it. Every lemma is a rewrite rule, so no later proof unfolds a record update. -/

namespace Sys2Proof.Machine

/-! ## Indexed values -/

@[simp] theorem PerBay.get_set {α : Type} (v : PerBay α) (b c : Bay) (x : α) :
    (v.set b x).get c = if c = b then x else v.get c := by cases b <;> cases c <;> rfl

@[simp] theorem PerPort.get_set {α : Type} (v : PerPort α) (p q : Port) (x : α) :
    (v.set p x).get q = if q = p then x else v.get q := by
  cases p <;> cases q <;> simp [PerPort.get, PerPort.set]

@[simp] theorem PerLoad.get_set {α : Type} (v : PerLoad α) (l m : Load) (x : α) :
    (v.set l x).get m = if m = l then x else v.get m := by
  cases l <;> cases m <;> simp [PerLoad.get, PerLoad.set]

@[simp] theorem PerInput.get_set {α : Type} (v : PerInput α) (i j : TripInput) (x : α) :
    (v.set i x).get j = if j = i then x else v.get j := by cases i <;> cases j <;> rfl

@[simp] theorem PerBay.get_all {α : Type} (x : α) (b : Bay) : (PerBay.all x).get b = x := by cases b <;> rfl
@[simp] theorem PerPort.get_all {α : Type} (x : α) (p : Port) : (PerPort.all x).get p = x := by
  cases p <;> simp [PerPort.get, PerPort.all]
@[simp] theorem PerLoad.get_all {α : Type} (x : α) (l : Load) : (PerLoad.all x).get l = x := by
  cases l <;> simp [PerLoad.get, PerLoad.all]

@[simp] theorem PerBay.get_map {α β : Type} (f : α → β) (v : PerBay α) (b : Bay) :
    (v.map f).get b = f (v.get b) := by cases b <;> rfl
@[simp] theorem PerLoad.get_map {α β : Type} (f : α → β) (v : PerLoad α) (l : Load) :
    (v.map f).get l = f (v.get l) := by cases l <;> simp [PerLoad.get, PerLoad.map]

theorem Bay.mem_list (b : Bay) : b ∈ Bay.list := by cases b <;> decide

/-! ## Fields that a write leaves -/

@[simp] theorem Part.setPort_fast (s : Part) (p : Port) (x : PortState) : (s.setPort p x).fast = s.fast := rfl
@[simp] theorem Part.setPort_store (s : Part) (p : Port) (x : PortState) : (s.setPort p x).store = s.store := rfl
@[simp] theorem Part.setPort_runners (s : Part) (p : Port) (x : PortState) : (s.setPort p x).runners = s.runners := rfl
@[simp] theorem Part.setPort_table (s : Part) (p : Port) (x : PortState) : (s.setPort p x).table = s.table := rfl
@[simp] theorem Part.setPort_boiler (s : Part) (p : Port) (x : PortState) : (s.setPort p x).boiler = s.boiler := rfl
@[simp] theorem Part.setPort_steam (s : Part) (p : Port) (x : PortState) : (s.setPort p x).steam = s.steam := rfl
@[simp] theorem Part.setPort_air (s : Part) (p : Port) (x : PortState) : (s.setPort p x).air = s.air := rfl
@[simp] theorem Part.setPort_comp (s : Part) (p : Port) (x : PortState) : (s.setPort p x).comp = s.comp := rfl
@[simp] theorem Part.setPort_loops (s : Part) (p : Port) (x : PortState) : (s.setPort p x).loops = s.loops := rfl
@[simp] theorem Part.setPort_trips (s : Part) (p : Port) (x : PortState) : (s.setPort p x).trips = s.trips := rfl
@[simp] theorem Part.setPort_notices (s : Part) (p : Port) (x : PortState) : (s.setPort p x).notices = s.notices := rfl
@[simp] theorem Part.setPort_mode (s : Part) (p : Port) (x : PortState) : (s.setPort p x).mode = s.mode := rfl
@[simp] theorem Part.setPort_live (s : Part) (p : Port) (x : PortState) : (s.setPort p x).live = s.live := rfl
@[simp] theorem Part.setPort_staged (s : Part) (p : Port) (x : PortState) : (s.setPort p x).staged = s.staged := rfl
@[simp] theorem Part.setPort_counters (s : Part) (p : Port) (x : PortState) : (s.setPort p x).counters = s.counters := rfl
@[simp] theorem Part.setPort_pins (s : Part) (p : Port) (x : PortState) : (s.setPort p x).pins = s.pins := rfl
@[simp] theorem Part.setPort_started (s : Part) (p : Port) (x : PortState) : (s.setPort p x).started = s.started := rfl
@[simp] theorem Part.setPort_clocks (s : Part) (p : Port) (x : PortState) : (s.setPort p x).clocks = s.clocks := rfl
@[simp] theorem Part.setPort_orders (s : Part) (p : Port) (x : PortState) : (s.setPort p x).orders = s.orders := rfl

@[simp] theorem Part.setList_ports (s : Part) (b : Bay) (rs : List Record) : (s.setList b rs).ports = s.ports := rfl
@[simp] theorem Part.setList_fast (s : Part) (b : Bay) (rs : List Record) : (s.setList b rs).fast = s.fast := rfl
@[simp] theorem Part.setList_runners (s : Part) (b : Bay) (rs : List Record) : (s.setList b rs).runners = s.runners := rfl
@[simp] theorem Part.setList_table (s : Part) (b : Bay) (rs : List Record) : (s.setList b rs).table = s.table := rfl
@[simp] theorem Part.setList_boiler (s : Part) (b : Bay) (rs : List Record) : (s.setList b rs).boiler = s.boiler := rfl
@[simp] theorem Part.setList_steam (s : Part) (b : Bay) (rs : List Record) : (s.setList b rs).steam = s.steam := rfl
@[simp] theorem Part.setList_air (s : Part) (b : Bay) (rs : List Record) : (s.setList b rs).air = s.air := rfl
@[simp] theorem Part.setList_comp (s : Part) (b : Bay) (rs : List Record) : (s.setList b rs).comp = s.comp := rfl
@[simp] theorem Part.setList_loops (s : Part) (b : Bay) (rs : List Record) : (s.setList b rs).loops = s.loops := rfl
@[simp] theorem Part.setList_trips (s : Part) (b : Bay) (rs : List Record) : (s.setList b rs).trips = s.trips := rfl
@[simp] theorem Part.setList_notices (s : Part) (b : Bay) (rs : List Record) : (s.setList b rs).notices = s.notices := rfl
@[simp] theorem Part.setList_mode (s : Part) (b : Bay) (rs : List Record) : (s.setList b rs).mode = s.mode := rfl
@[simp] theorem Part.setList_live (s : Part) (b : Bay) (rs : List Record) : (s.setList b rs).live = s.live := rfl
@[simp] theorem Part.setList_staged (s : Part) (b : Bay) (rs : List Record) : (s.setList b rs).staged = s.staged := rfl
@[simp] theorem Part.setList_counters (s : Part) (b : Bay) (rs : List Record) : (s.setList b rs).counters = s.counters := rfl
@[simp] theorem Part.setList_pins (s : Part) (b : Bay) (rs : List Record) : (s.setList b rs).pins = s.pins := rfl
@[simp] theorem Part.setList_started (s : Part) (b : Bay) (rs : List Record) : (s.setList b rs).started = s.started := rfl
@[simp] theorem Part.setList_clocks (s : Part) (b : Bay) (rs : List Record) : (s.setList b rs).clocks = s.clocks := rfl
@[simp] theorem Part.setList_orders (s : Part) (b : Bay) (rs : List Record) : (s.setList b rs).orders = s.orders := rfl

@[simp] theorem Part.setRunner_ports (s : Part) (b : Bay) (r : Runner) : (s.setRunner b r).ports = s.ports := rfl
@[simp] theorem Part.setRunner_fast (s : Part) (b : Bay) (r : Runner) : (s.setRunner b r).fast = s.fast := rfl
@[simp] theorem Part.setRunner_store (s : Part) (b : Bay) (r : Runner) : (s.setRunner b r).store = s.store := rfl
@[simp] theorem Part.setRunner_table (s : Part) (b : Bay) (r : Runner) : (s.setRunner b r).table = s.table := rfl
@[simp] theorem Part.setRunner_boiler (s : Part) (b : Bay) (r : Runner) : (s.setRunner b r).boiler = s.boiler := rfl
@[simp] theorem Part.setRunner_steam (s : Part) (b : Bay) (r : Runner) : (s.setRunner b r).steam = s.steam := rfl
@[simp] theorem Part.setRunner_air (s : Part) (b : Bay) (r : Runner) : (s.setRunner b r).air = s.air := rfl
@[simp] theorem Part.setRunner_comp (s : Part) (b : Bay) (r : Runner) : (s.setRunner b r).comp = s.comp := rfl
@[simp] theorem Part.setRunner_loops (s : Part) (b : Bay) (r : Runner) : (s.setRunner b r).loops = s.loops := rfl
@[simp] theorem Part.setRunner_trips (s : Part) (b : Bay) (r : Runner) : (s.setRunner b r).trips = s.trips := rfl
@[simp] theorem Part.setRunner_notices (s : Part) (b : Bay) (r : Runner) : (s.setRunner b r).notices = s.notices := rfl
@[simp] theorem Part.setRunner_mode (s : Part) (b : Bay) (r : Runner) : (s.setRunner b r).mode = s.mode := rfl
@[simp] theorem Part.setRunner_live (s : Part) (b : Bay) (r : Runner) : (s.setRunner b r).live = s.live := rfl
@[simp] theorem Part.setRunner_staged (s : Part) (b : Bay) (r : Runner) : (s.setRunner b r).staged = s.staged := rfl
@[simp] theorem Part.setRunner_counters (s : Part) (b : Bay) (r : Runner) : (s.setRunner b r).counters = s.counters := rfl
@[simp] theorem Part.setRunner_pins (s : Part) (b : Bay) (r : Runner) : (s.setRunner b r).pins = s.pins := rfl
@[simp] theorem Part.setRunner_started (s : Part) (b : Bay) (r : Runner) : (s.setRunner b r).started = s.started := rfl
@[simp] theorem Part.setRunner_clocks (s : Part) (b : Bay) (r : Runner) : (s.setRunner b r).clocks = s.clocks := rfl
@[simp] theorem Part.setRunner_orders (s : Part) (b : Bay) (r : Runner) : (s.setRunner b r).orders = s.orders := rfl

@[simp] theorem Part.setLoad_ports (s : Part) (l : Load) (e : LoadEntry) : (s.setLoad l e).ports = s.ports := rfl
@[simp] theorem Part.setLoad_fast (s : Part) (l : Load) (e : LoadEntry) : (s.setLoad l e).fast = s.fast := rfl
@[simp] theorem Part.setLoad_store (s : Part) (l : Load) (e : LoadEntry) : (s.setLoad l e).store = s.store := rfl
@[simp] theorem Part.setLoad_runners (s : Part) (l : Load) (e : LoadEntry) : (s.setLoad l e).runners = s.runners := rfl
@[simp] theorem Part.setLoad_boiler (s : Part) (l : Load) (e : LoadEntry) : (s.setLoad l e).boiler = s.boiler := rfl
@[simp] theorem Part.setLoad_steam (s : Part) (l : Load) (e : LoadEntry) : (s.setLoad l e).steam = s.steam := rfl
@[simp] theorem Part.setLoad_air (s : Part) (l : Load) (e : LoadEntry) : (s.setLoad l e).air = s.air := rfl
@[simp] theorem Part.setLoad_comp (s : Part) (l : Load) (e : LoadEntry) : (s.setLoad l e).comp = s.comp := rfl
@[simp] theorem Part.setLoad_loops (s : Part) (l : Load) (e : LoadEntry) : (s.setLoad l e).loops = s.loops := rfl
@[simp] theorem Part.setLoad_trips (s : Part) (l : Load) (e : LoadEntry) : (s.setLoad l e).trips = s.trips := rfl
@[simp] theorem Part.setLoad_notices (s : Part) (l : Load) (e : LoadEntry) : (s.setLoad l e).notices = s.notices := rfl
@[simp] theorem Part.setLoad_mode (s : Part) (l : Load) (e : LoadEntry) : (s.setLoad l e).mode = s.mode := rfl
@[simp] theorem Part.setLoad_live (s : Part) (l : Load) (e : LoadEntry) : (s.setLoad l e).live = s.live := rfl
@[simp] theorem Part.setLoad_staged (s : Part) (l : Load) (e : LoadEntry) : (s.setLoad l e).staged = s.staged := rfl
@[simp] theorem Part.setLoad_counters (s : Part) (l : Load) (e : LoadEntry) : (s.setLoad l e).counters = s.counters := rfl
@[simp] theorem Part.setLoad_pins (s : Part) (l : Load) (e : LoadEntry) : (s.setLoad l e).pins = s.pins := rfl
@[simp] theorem Part.setLoad_started (s : Part) (l : Load) (e : LoadEntry) : (s.setLoad l e).started = s.started := rfl
@[simp] theorem Part.setLoad_clocks (s : Part) (l : Load) (e : LoadEntry) : (s.setLoad l e).clocks = s.clocks := rfl
@[simp] theorem Part.setLoad_orders (s : Part) (l : Load) (e : LoadEntry) : (s.setLoad l e).orders = s.orders := rfl

@[simp] theorem Part.setLoop_ports (s : Part) (b : Bay) (x : AirLoop) : (s.setLoop b x).ports = s.ports := rfl
@[simp] theorem Part.setLoop_fast (s : Part) (b : Bay) (x : AirLoop) : (s.setLoop b x).fast = s.fast := rfl
@[simp] theorem Part.setLoop_store (s : Part) (b : Bay) (x : AirLoop) : (s.setLoop b x).store = s.store := rfl
@[simp] theorem Part.setLoop_runners (s : Part) (b : Bay) (x : AirLoop) : (s.setLoop b x).runners = s.runners := rfl
@[simp] theorem Part.setLoop_table (s : Part) (b : Bay) (x : AirLoop) : (s.setLoop b x).table = s.table := rfl
@[simp] theorem Part.setLoop_boiler (s : Part) (b : Bay) (x : AirLoop) : (s.setLoop b x).boiler = s.boiler := rfl
@[simp] theorem Part.setLoop_steam (s : Part) (b : Bay) (x : AirLoop) : (s.setLoop b x).steam = s.steam := rfl
@[simp] theorem Part.setLoop_air (s : Part) (b : Bay) (x : AirLoop) : (s.setLoop b x).air = s.air := rfl
@[simp] theorem Part.setLoop_comp (s : Part) (b : Bay) (x : AirLoop) : (s.setLoop b x).comp = s.comp := rfl
@[simp] theorem Part.setLoop_trips (s : Part) (b : Bay) (x : AirLoop) : (s.setLoop b x).trips = s.trips := rfl
@[simp] theorem Part.setLoop_notices (s : Part) (b : Bay) (x : AirLoop) : (s.setLoop b x).notices = s.notices := rfl
@[simp] theorem Part.setLoop_mode (s : Part) (b : Bay) (x : AirLoop) : (s.setLoop b x).mode = s.mode := rfl
@[simp] theorem Part.setLoop_live (s : Part) (b : Bay) (x : AirLoop) : (s.setLoop b x).live = s.live := rfl
@[simp] theorem Part.setLoop_staged (s : Part) (b : Bay) (x : AirLoop) : (s.setLoop b x).staged = s.staged := rfl
@[simp] theorem Part.setLoop_counters (s : Part) (b : Bay) (x : AirLoop) : (s.setLoop b x).counters = s.counters := rfl
@[simp] theorem Part.setLoop_pins (s : Part) (b : Bay) (x : AirLoop) : (s.setLoop b x).pins = s.pins := rfl
@[simp] theorem Part.setLoop_started (s : Part) (b : Bay) (x : AirLoop) : (s.setLoop b x).started = s.started := rfl
@[simp] theorem Part.setLoop_clocks (s : Part) (b : Bay) (x : AirLoop) : (s.setLoop b x).clocks = s.clocks := rfl
@[simp] theorem Part.setLoop_orders (s : Part) (b : Bay) (x : AirLoop) : (s.setLoop b x).orders = s.orders := rfl

@[simp] theorem Part.setNotice_ports (s : Part) (p : Port) (n : Notice) : (s.setNotice p n).ports = s.ports := rfl
@[simp] theorem Part.setNotice_fast (s : Part) (p : Port) (n : Notice) : (s.setNotice p n).fast = s.fast := rfl
@[simp] theorem Part.setNotice_store (s : Part) (p : Port) (n : Notice) : (s.setNotice p n).store = s.store := rfl
@[simp] theorem Part.setNotice_runners (s : Part) (p : Port) (n : Notice) : (s.setNotice p n).runners = s.runners := rfl
@[simp] theorem Part.setNotice_table (s : Part) (p : Port) (n : Notice) : (s.setNotice p n).table = s.table := rfl
@[simp] theorem Part.setNotice_boiler (s : Part) (p : Port) (n : Notice) : (s.setNotice p n).boiler = s.boiler := rfl
@[simp] theorem Part.setNotice_steam (s : Part) (p : Port) (n : Notice) : (s.setNotice p n).steam = s.steam := rfl
@[simp] theorem Part.setNotice_air (s : Part) (p : Port) (n : Notice) : (s.setNotice p n).air = s.air := rfl
@[simp] theorem Part.setNotice_comp (s : Part) (p : Port) (n : Notice) : (s.setNotice p n).comp = s.comp := rfl
@[simp] theorem Part.setNotice_loops (s : Part) (p : Port) (n : Notice) : (s.setNotice p n).loops = s.loops := rfl
@[simp] theorem Part.setNotice_trips (s : Part) (p : Port) (n : Notice) : (s.setNotice p n).trips = s.trips := rfl
@[simp] theorem Part.setNotice_mode (s : Part) (p : Port) (n : Notice) : (s.setNotice p n).mode = s.mode := rfl
@[simp] theorem Part.setNotice_live (s : Part) (p : Port) (n : Notice) : (s.setNotice p n).live = s.live := rfl
@[simp] theorem Part.setNotice_staged (s : Part) (p : Port) (n : Notice) : (s.setNotice p n).staged = s.staged := rfl
@[simp] theorem Part.setNotice_counters (s : Part) (p : Port) (n : Notice) : (s.setNotice p n).counters = s.counters := rfl
@[simp] theorem Part.setNotice_pins (s : Part) (p : Port) (n : Notice) : (s.setNotice p n).pins = s.pins := rfl
@[simp] theorem Part.setNotice_started (s : Part) (p : Port) (n : Notice) : (s.setNotice p n).started = s.started := rfl
@[simp] theorem Part.setNotice_clocks (s : Part) (p : Port) (n : Notice) : (s.setNotice p n).clocks = s.clocks := rfl
@[simp] theorem Part.setNotice_orders (s : Part) (p : Port) (n : Notice) : (s.setNotice p n).orders = s.orders := rfl

@[simp] theorem Part.setBoiler_ports (s : Part) (x : Boiler) : (s.setBoiler x).ports = s.ports := rfl
@[simp] theorem Part.setBoiler_fast (s : Part) (x : Boiler) : (s.setBoiler x).fast = s.fast := rfl
@[simp] theorem Part.setBoiler_store (s : Part) (x : Boiler) : (s.setBoiler x).store = s.store := rfl
@[simp] theorem Part.setBoiler_runners (s : Part) (x : Boiler) : (s.setBoiler x).runners = s.runners := rfl
@[simp] theorem Part.setBoiler_table (s : Part) (x : Boiler) : (s.setBoiler x).table = s.table := rfl
@[simp] theorem Part.setBoiler_boiler (s : Part) (x : Boiler) : (s.setBoiler x).boiler = x := rfl
@[simp] theorem Part.setBoiler_steam (s : Part) (x : Boiler) : (s.setBoiler x).steam = s.steam := rfl
@[simp] theorem Part.setBoiler_air (s : Part) (x : Boiler) : (s.setBoiler x).air = s.air := rfl
@[simp] theorem Part.setBoiler_comp (s : Part) (x : Boiler) : (s.setBoiler x).comp = s.comp := rfl
@[simp] theorem Part.setBoiler_loops (s : Part) (x : Boiler) : (s.setBoiler x).loops = s.loops := rfl
@[simp] theorem Part.setBoiler_trips (s : Part) (x : Boiler) : (s.setBoiler x).trips = s.trips := rfl
@[simp] theorem Part.setBoiler_notices (s : Part) (x : Boiler) : (s.setBoiler x).notices = s.notices := rfl
@[simp] theorem Part.setBoiler_mode (s : Part) (x : Boiler) : (s.setBoiler x).mode = s.mode := rfl
@[simp] theorem Part.setBoiler_live (s : Part) (x : Boiler) : (s.setBoiler x).live = s.live := rfl
@[simp] theorem Part.setBoiler_staged (s : Part) (x : Boiler) : (s.setBoiler x).staged = s.staged := rfl
@[simp] theorem Part.setBoiler_counters (s : Part) (x : Boiler) : (s.setBoiler x).counters = s.counters := rfl
@[simp] theorem Part.setBoiler_pins (s : Part) (x : Boiler) : (s.setBoiler x).pins = s.pins := rfl
@[simp] theorem Part.setBoiler_started (s : Part) (x : Boiler) : (s.setBoiler x).started = s.started := rfl
@[simp] theorem Part.setBoiler_clocks (s : Part) (x : Boiler) : (s.setBoiler x).clocks = s.clocks := rfl
@[simp] theorem Part.setBoiler_orders (s : Part) (x : Boiler) : (s.setBoiler x).orders = s.orders := rfl

@[simp] theorem Part.setSteam_ports (s : Part) (x : Steam) : (s.setSteam x).ports = s.ports := rfl
@[simp] theorem Part.setSteam_fast (s : Part) (x : Steam) : (s.setSteam x).fast = s.fast := rfl
@[simp] theorem Part.setSteam_store (s : Part) (x : Steam) : (s.setSteam x).store = s.store := rfl
@[simp] theorem Part.setSteam_runners (s : Part) (x : Steam) : (s.setSteam x).runners = s.runners := rfl
@[simp] theorem Part.setSteam_table (s : Part) (x : Steam) : (s.setSteam x).table = s.table := rfl
@[simp] theorem Part.setSteam_boiler (s : Part) (x : Steam) : (s.setSteam x).boiler = s.boiler := rfl
@[simp] theorem Part.setSteam_steam (s : Part) (x : Steam) : (s.setSteam x).steam = x := rfl
@[simp] theorem Part.setSteam_air (s : Part) (x : Steam) : (s.setSteam x).air = s.air := rfl
@[simp] theorem Part.setSteam_comp (s : Part) (x : Steam) : (s.setSteam x).comp = s.comp := rfl
@[simp] theorem Part.setSteam_loops (s : Part) (x : Steam) : (s.setSteam x).loops = s.loops := rfl
@[simp] theorem Part.setSteam_trips (s : Part) (x : Steam) : (s.setSteam x).trips = s.trips := rfl
@[simp] theorem Part.setSteam_notices (s : Part) (x : Steam) : (s.setSteam x).notices = s.notices := rfl
@[simp] theorem Part.setSteam_mode (s : Part) (x : Steam) : (s.setSteam x).mode = s.mode := rfl
@[simp] theorem Part.setSteam_live (s : Part) (x : Steam) : (s.setSteam x).live = s.live := rfl
@[simp] theorem Part.setSteam_staged (s : Part) (x : Steam) : (s.setSteam x).staged = s.staged := rfl
@[simp] theorem Part.setSteam_counters (s : Part) (x : Steam) : (s.setSteam x).counters = s.counters := rfl
@[simp] theorem Part.setSteam_pins (s : Part) (x : Steam) : (s.setSteam x).pins = s.pins := rfl
@[simp] theorem Part.setSteam_started (s : Part) (x : Steam) : (s.setSteam x).started = s.started := rfl
@[simp] theorem Part.setSteam_clocks (s : Part) (x : Steam) : (s.setSteam x).clocks = s.clocks := rfl
@[simp] theorem Part.setSteam_orders (s : Part) (x : Steam) : (s.setSteam x).orders = s.orders := rfl

@[simp] theorem Part.setAir_ports (s : Part) (x : Air) : (s.setAir x).ports = s.ports := rfl
@[simp] theorem Part.setAir_fast (s : Part) (x : Air) : (s.setAir x).fast = s.fast := rfl
@[simp] theorem Part.setAir_store (s : Part) (x : Air) : (s.setAir x).store = s.store := rfl
@[simp] theorem Part.setAir_runners (s : Part) (x : Air) : (s.setAir x).runners = s.runners := rfl
@[simp] theorem Part.setAir_table (s : Part) (x : Air) : (s.setAir x).table = s.table := rfl
@[simp] theorem Part.setAir_boiler (s : Part) (x : Air) : (s.setAir x).boiler = s.boiler := rfl
@[simp] theorem Part.setAir_steam (s : Part) (x : Air) : (s.setAir x).steam = s.steam := rfl
@[simp] theorem Part.setAir_air (s : Part) (x : Air) : (s.setAir x).air = x := rfl
@[simp] theorem Part.setAir_comp (s : Part) (x : Air) : (s.setAir x).comp = s.comp := rfl
@[simp] theorem Part.setAir_loops (s : Part) (x : Air) : (s.setAir x).loops = s.loops := rfl
@[simp] theorem Part.setAir_trips (s : Part) (x : Air) : (s.setAir x).trips = s.trips := rfl
@[simp] theorem Part.setAir_notices (s : Part) (x : Air) : (s.setAir x).notices = s.notices := rfl
@[simp] theorem Part.setAir_mode (s : Part) (x : Air) : (s.setAir x).mode = s.mode := rfl
@[simp] theorem Part.setAir_live (s : Part) (x : Air) : (s.setAir x).live = s.live := rfl
@[simp] theorem Part.setAir_staged (s : Part) (x : Air) : (s.setAir x).staged = s.staged := rfl
@[simp] theorem Part.setAir_counters (s : Part) (x : Air) : (s.setAir x).counters = s.counters := rfl
@[simp] theorem Part.setAir_pins (s : Part) (x : Air) : (s.setAir x).pins = s.pins := rfl
@[simp] theorem Part.setAir_started (s : Part) (x : Air) : (s.setAir x).started = s.started := rfl
@[simp] theorem Part.setAir_clocks (s : Part) (x : Air) : (s.setAir x).clocks = s.clocks := rfl
@[simp] theorem Part.setAir_orders (s : Part) (x : Air) : (s.setAir x).orders = s.orders := rfl

@[simp] theorem Part.setComp_ports (s : Part) (x : Compressor) : (s.setComp x).ports = s.ports := rfl
@[simp] theorem Part.setComp_fast (s : Part) (x : Compressor) : (s.setComp x).fast = s.fast := rfl
@[simp] theorem Part.setComp_store (s : Part) (x : Compressor) : (s.setComp x).store = s.store := rfl
@[simp] theorem Part.setComp_runners (s : Part) (x : Compressor) : (s.setComp x).runners = s.runners := rfl
@[simp] theorem Part.setComp_table (s : Part) (x : Compressor) : (s.setComp x).table = s.table := rfl
@[simp] theorem Part.setComp_boiler (s : Part) (x : Compressor) : (s.setComp x).boiler = s.boiler := rfl
@[simp] theorem Part.setComp_steam (s : Part) (x : Compressor) : (s.setComp x).steam = s.steam := rfl
@[simp] theorem Part.setComp_air (s : Part) (x : Compressor) : (s.setComp x).air = s.air := rfl
@[simp] theorem Part.setComp_comp (s : Part) (x : Compressor) : (s.setComp x).comp = x := rfl
@[simp] theorem Part.setComp_loops (s : Part) (x : Compressor) : (s.setComp x).loops = s.loops := rfl
@[simp] theorem Part.setComp_trips (s : Part) (x : Compressor) : (s.setComp x).trips = s.trips := rfl
@[simp] theorem Part.setComp_notices (s : Part) (x : Compressor) : (s.setComp x).notices = s.notices := rfl
@[simp] theorem Part.setComp_mode (s : Part) (x : Compressor) : (s.setComp x).mode = s.mode := rfl
@[simp] theorem Part.setComp_live (s : Part) (x : Compressor) : (s.setComp x).live = s.live := rfl
@[simp] theorem Part.setComp_staged (s : Part) (x : Compressor) : (s.setComp x).staged = s.staged := rfl
@[simp] theorem Part.setComp_counters (s : Part) (x : Compressor) : (s.setComp x).counters = s.counters := rfl
@[simp] theorem Part.setComp_pins (s : Part) (x : Compressor) : (s.setComp x).pins = s.pins := rfl
@[simp] theorem Part.setComp_started (s : Part) (x : Compressor) : (s.setComp x).started = s.started := rfl
@[simp] theorem Part.setComp_clocks (s : Part) (x : Compressor) : (s.setComp x).clocks = s.clocks := rfl
@[simp] theorem Part.setComp_orders (s : Part) (x : Compressor) : (s.setComp x).orders = s.orders := rfl

@[simp] theorem Part.setTrips_ports (s : Part) (x : TripUnit) : (s.setTrips x).ports = s.ports := rfl
@[simp] theorem Part.setTrips_fast (s : Part) (x : TripUnit) : (s.setTrips x).fast = s.fast := rfl
@[simp] theorem Part.setTrips_store (s : Part) (x : TripUnit) : (s.setTrips x).store = s.store := rfl
@[simp] theorem Part.setTrips_runners (s : Part) (x : TripUnit) : (s.setTrips x).runners = s.runners := rfl
@[simp] theorem Part.setTrips_table (s : Part) (x : TripUnit) : (s.setTrips x).table = s.table := rfl
@[simp] theorem Part.setTrips_boiler (s : Part) (x : TripUnit) : (s.setTrips x).boiler = s.boiler := rfl
@[simp] theorem Part.setTrips_steam (s : Part) (x : TripUnit) : (s.setTrips x).steam = s.steam := rfl
@[simp] theorem Part.setTrips_air (s : Part) (x : TripUnit) : (s.setTrips x).air = s.air := rfl
@[simp] theorem Part.setTrips_comp (s : Part) (x : TripUnit) : (s.setTrips x).comp = s.comp := rfl
@[simp] theorem Part.setTrips_loops (s : Part) (x : TripUnit) : (s.setTrips x).loops = s.loops := rfl
@[simp] theorem Part.setTrips_trips (s : Part) (x : TripUnit) : (s.setTrips x).trips = x := rfl
@[simp] theorem Part.setTrips_notices (s : Part) (x : TripUnit) : (s.setTrips x).notices = s.notices := rfl
@[simp] theorem Part.setTrips_mode (s : Part) (x : TripUnit) : (s.setTrips x).mode = s.mode := rfl
@[simp] theorem Part.setTrips_live (s : Part) (x : TripUnit) : (s.setTrips x).live = s.live := rfl
@[simp] theorem Part.setTrips_staged (s : Part) (x : TripUnit) : (s.setTrips x).staged = s.staged := rfl
@[simp] theorem Part.setTrips_counters (s : Part) (x : TripUnit) : (s.setTrips x).counters = s.counters := rfl
@[simp] theorem Part.setTrips_pins (s : Part) (x : TripUnit) : (s.setTrips x).pins = s.pins := rfl
@[simp] theorem Part.setTrips_started (s : Part) (x : TripUnit) : (s.setTrips x).started = s.started := rfl
@[simp] theorem Part.setTrips_clocks (s : Part) (x : TripUnit) : (s.setTrips x).clocks = s.clocks := rfl
@[simp] theorem Part.setTrips_orders (s : Part) (x : TripUnit) : (s.setTrips x).orders = s.orders := rfl

@[simp] theorem Part.setTable_ports (s : Part) (x : LoadTable) : (s.setTable x).ports = s.ports := rfl
@[simp] theorem Part.setTable_fast (s : Part) (x : LoadTable) : (s.setTable x).fast = s.fast := rfl
@[simp] theorem Part.setTable_store (s : Part) (x : LoadTable) : (s.setTable x).store = s.store := rfl
@[simp] theorem Part.setTable_runners (s : Part) (x : LoadTable) : (s.setTable x).runners = s.runners := rfl
@[simp] theorem Part.setTable_table (s : Part) (x : LoadTable) : (s.setTable x).table = x := rfl
@[simp] theorem Part.setTable_boiler (s : Part) (x : LoadTable) : (s.setTable x).boiler = s.boiler := rfl
@[simp] theorem Part.setTable_steam (s : Part) (x : LoadTable) : (s.setTable x).steam = s.steam := rfl
@[simp] theorem Part.setTable_air (s : Part) (x : LoadTable) : (s.setTable x).air = s.air := rfl
@[simp] theorem Part.setTable_comp (s : Part) (x : LoadTable) : (s.setTable x).comp = s.comp := rfl
@[simp] theorem Part.setTable_loops (s : Part) (x : LoadTable) : (s.setTable x).loops = s.loops := rfl
@[simp] theorem Part.setTable_trips (s : Part) (x : LoadTable) : (s.setTable x).trips = s.trips := rfl
@[simp] theorem Part.setTable_notices (s : Part) (x : LoadTable) : (s.setTable x).notices = s.notices := rfl
@[simp] theorem Part.setTable_mode (s : Part) (x : LoadTable) : (s.setTable x).mode = s.mode := rfl
@[simp] theorem Part.setTable_live (s : Part) (x : LoadTable) : (s.setTable x).live = s.live := rfl
@[simp] theorem Part.setTable_staged (s : Part) (x : LoadTable) : (s.setTable x).staged = s.staged := rfl
@[simp] theorem Part.setTable_counters (s : Part) (x : LoadTable) : (s.setTable x).counters = s.counters := rfl
@[simp] theorem Part.setTable_pins (s : Part) (x : LoadTable) : (s.setTable x).pins = s.pins := rfl
@[simp] theorem Part.setTable_started (s : Part) (x : LoadTable) : (s.setTable x).started = s.started := rfl
@[simp] theorem Part.setTable_clocks (s : Part) (x : LoadTable) : (s.setTable x).clocks = s.clocks := rfl
@[simp] theorem Part.setTable_orders (s : Part) (x : LoadTable) : (s.setTable x).orders = s.orders := rfl

@[simp] theorem Part.setMode_ports (s : Part) (m : Mode) : (s.setMode m).ports = s.ports := rfl
@[simp] theorem Part.setMode_fast (s : Part) (m : Mode) : (s.setMode m).fast = s.fast := rfl
@[simp] theorem Part.setMode_store (s : Part) (m : Mode) : (s.setMode m).store = s.store := rfl
@[simp] theorem Part.setMode_runners (s : Part) (m : Mode) : (s.setMode m).runners = s.runners := rfl
@[simp] theorem Part.setMode_table (s : Part) (m : Mode) : (s.setMode m).table = s.table := rfl
@[simp] theorem Part.setMode_boiler (s : Part) (m : Mode) : (s.setMode m).boiler = s.boiler := rfl
@[simp] theorem Part.setMode_steam (s : Part) (m : Mode) : (s.setMode m).steam = s.steam := rfl
@[simp] theorem Part.setMode_air (s : Part) (m : Mode) : (s.setMode m).air = s.air := rfl
@[simp] theorem Part.setMode_comp (s : Part) (m : Mode) : (s.setMode m).comp = s.comp := rfl
@[simp] theorem Part.setMode_loops (s : Part) (m : Mode) : (s.setMode m).loops = s.loops := rfl
@[simp] theorem Part.setMode_trips (s : Part) (m : Mode) : (s.setMode m).trips = s.trips := rfl
@[simp] theorem Part.setMode_notices (s : Part) (m : Mode) : (s.setMode m).notices = s.notices := rfl
@[simp] theorem Part.setMode_mode (s : Part) (m : Mode) : (s.setMode m).mode = m := rfl
@[simp] theorem Part.setMode_live (s : Part) (m : Mode) : (s.setMode m).live = s.live := rfl
@[simp] theorem Part.setMode_staged (s : Part) (m : Mode) : (s.setMode m).staged = s.staged := rfl
@[simp] theorem Part.setMode_counters (s : Part) (m : Mode) : (s.setMode m).counters = s.counters := rfl
@[simp] theorem Part.setMode_pins (s : Part) (m : Mode) : (s.setMode m).pins = s.pins := rfl
@[simp] theorem Part.setMode_started (s : Part) (m : Mode) : (s.setMode m).started = s.started := rfl
@[simp] theorem Part.setMode_clocks (s : Part) (m : Mode) : (s.setMode m).clocks = s.clocks := rfl
@[simp] theorem Part.setMode_orders (s : Part) (m : Mode) : (s.setMode m).orders = s.orders := rfl

@[simp] theorem Part.setClocks_ports (s : Part) (x : Clocks) : (s.setClocks x).ports = s.ports := rfl
@[simp] theorem Part.setClocks_fast (s : Part) (x : Clocks) : (s.setClocks x).fast = s.fast := rfl
@[simp] theorem Part.setClocks_store (s : Part) (x : Clocks) : (s.setClocks x).store = s.store := rfl
@[simp] theorem Part.setClocks_runners (s : Part) (x : Clocks) : (s.setClocks x).runners = s.runners := rfl
@[simp] theorem Part.setClocks_table (s : Part) (x : Clocks) : (s.setClocks x).table = s.table := rfl
@[simp] theorem Part.setClocks_boiler (s : Part) (x : Clocks) : (s.setClocks x).boiler = s.boiler := rfl
@[simp] theorem Part.setClocks_steam (s : Part) (x : Clocks) : (s.setClocks x).steam = s.steam := rfl
@[simp] theorem Part.setClocks_air (s : Part) (x : Clocks) : (s.setClocks x).air = s.air := rfl
@[simp] theorem Part.setClocks_comp (s : Part) (x : Clocks) : (s.setClocks x).comp = s.comp := rfl
@[simp] theorem Part.setClocks_loops (s : Part) (x : Clocks) : (s.setClocks x).loops = s.loops := rfl
@[simp] theorem Part.setClocks_trips (s : Part) (x : Clocks) : (s.setClocks x).trips = s.trips := rfl
@[simp] theorem Part.setClocks_notices (s : Part) (x : Clocks) : (s.setClocks x).notices = s.notices := rfl
@[simp] theorem Part.setClocks_mode (s : Part) (x : Clocks) : (s.setClocks x).mode = s.mode := rfl
@[simp] theorem Part.setClocks_live (s : Part) (x : Clocks) : (s.setClocks x).live = s.live := rfl
@[simp] theorem Part.setClocks_staged (s : Part) (x : Clocks) : (s.setClocks x).staged = s.staged := rfl
@[simp] theorem Part.setClocks_counters (s : Part) (x : Clocks) : (s.setClocks x).counters = s.counters := rfl
@[simp] theorem Part.setClocks_pins (s : Part) (x : Clocks) : (s.setClocks x).pins = s.pins := rfl
@[simp] theorem Part.setClocks_started (s : Part) (x : Clocks) : (s.setClocks x).started = s.started := rfl
@[simp] theorem Part.setClocks_clocks (s : Part) (x : Clocks) : (s.setClocks x).clocks = x := rfl
@[simp] theorem Part.setClocks_orders (s : Part) (x : Clocks) : (s.setClocks x).orders = s.orders := rfl

@[simp] theorem Part.setPins_ports (s : Part) (x : Pins) : (s.setPins x).ports = s.ports := rfl
@[simp] theorem Part.setPins_fast (s : Part) (x : Pins) : (s.setPins x).fast = s.fast := rfl
@[simp] theorem Part.setPins_store (s : Part) (x : Pins) : (s.setPins x).store = s.store := rfl
@[simp] theorem Part.setPins_runners (s : Part) (x : Pins) : (s.setPins x).runners = s.runners := rfl
@[simp] theorem Part.setPins_table (s : Part) (x : Pins) : (s.setPins x).table = s.table := rfl
@[simp] theorem Part.setPins_boiler (s : Part) (x : Pins) : (s.setPins x).boiler = s.boiler := rfl
@[simp] theorem Part.setPins_steam (s : Part) (x : Pins) : (s.setPins x).steam = s.steam := rfl
@[simp] theorem Part.setPins_air (s : Part) (x : Pins) : (s.setPins x).air = s.air := rfl
@[simp] theorem Part.setPins_comp (s : Part) (x : Pins) : (s.setPins x).comp = s.comp := rfl
@[simp] theorem Part.setPins_loops (s : Part) (x : Pins) : (s.setPins x).loops = s.loops := rfl
@[simp] theorem Part.setPins_trips (s : Part) (x : Pins) : (s.setPins x).trips = s.trips := rfl
@[simp] theorem Part.setPins_notices (s : Part) (x : Pins) : (s.setPins x).notices = s.notices := rfl
@[simp] theorem Part.setPins_mode (s : Part) (x : Pins) : (s.setPins x).mode = s.mode := rfl
@[simp] theorem Part.setPins_live (s : Part) (x : Pins) : (s.setPins x).live = s.live := rfl
@[simp] theorem Part.setPins_staged (s : Part) (x : Pins) : (s.setPins x).staged = s.staged := rfl
@[simp] theorem Part.setPins_counters (s : Part) (x : Pins) : (s.setPins x).counters = s.counters := rfl
@[simp] theorem Part.setPins_pins (s : Part) (x : Pins) : (s.setPins x).pins = x := rfl
@[simp] theorem Part.setPins_started (s : Part) (x : Pins) : (s.setPins x).started = s.started := rfl
@[simp] theorem Part.setPins_clocks (s : Part) (x : Pins) : (s.setPins x).clocks = s.clocks := rfl
@[simp] theorem Part.setPins_orders (s : Part) (x : Pins) : (s.setPins x).orders = s.orders := rfl

@[simp] theorem Part.setBayCounters_ports (s : Part) (b : Bay) (x : BayCounters) : (s.setBayCounters b x).ports = s.ports := rfl
@[simp] theorem Part.setBayCounters_fast (s : Part) (b : Bay) (x : BayCounters) : (s.setBayCounters b x).fast = s.fast := rfl
@[simp] theorem Part.setBayCounters_store (s : Part) (b : Bay) (x : BayCounters) : (s.setBayCounters b x).store = s.store := rfl
@[simp] theorem Part.setBayCounters_runners (s : Part) (b : Bay) (x : BayCounters) : (s.setBayCounters b x).runners = s.runners := rfl
@[simp] theorem Part.setBayCounters_table (s : Part) (b : Bay) (x : BayCounters) : (s.setBayCounters b x).table = s.table := rfl
@[simp] theorem Part.setBayCounters_boiler (s : Part) (b : Bay) (x : BayCounters) : (s.setBayCounters b x).boiler = s.boiler := rfl
@[simp] theorem Part.setBayCounters_steam (s : Part) (b : Bay) (x : BayCounters) : (s.setBayCounters b x).steam = s.steam := rfl
@[simp] theorem Part.setBayCounters_air (s : Part) (b : Bay) (x : BayCounters) : (s.setBayCounters b x).air = s.air := rfl
@[simp] theorem Part.setBayCounters_comp (s : Part) (b : Bay) (x : BayCounters) : (s.setBayCounters b x).comp = s.comp := rfl
@[simp] theorem Part.setBayCounters_loops (s : Part) (b : Bay) (x : BayCounters) : (s.setBayCounters b x).loops = s.loops := rfl
@[simp] theorem Part.setBayCounters_trips (s : Part) (b : Bay) (x : BayCounters) : (s.setBayCounters b x).trips = s.trips := rfl
@[simp] theorem Part.setBayCounters_notices (s : Part) (b : Bay) (x : BayCounters) : (s.setBayCounters b x).notices = s.notices := rfl
@[simp] theorem Part.setBayCounters_mode (s : Part) (b : Bay) (x : BayCounters) : (s.setBayCounters b x).mode = s.mode := rfl
@[simp] theorem Part.setBayCounters_live (s : Part) (b : Bay) (x : BayCounters) : (s.setBayCounters b x).live = s.live := rfl
@[simp] theorem Part.setBayCounters_staged (s : Part) (b : Bay) (x : BayCounters) : (s.setBayCounters b x).staged = s.staged := rfl
@[simp] theorem Part.setBayCounters_pins (s : Part) (b : Bay) (x : BayCounters) : (s.setBayCounters b x).pins = s.pins := rfl
@[simp] theorem Part.setBayCounters_started (s : Part) (b : Bay) (x : BayCounters) : (s.setBayCounters b x).started = s.started := rfl
@[simp] theorem Part.setBayCounters_clocks (s : Part) (b : Bay) (x : BayCounters) : (s.setBayCounters b x).clocks = s.clocks := rfl
@[simp] theorem Part.setBayCounters_orders (s : Part) (b : Bay) (x : BayCounters) : (s.setBayCounters b x).orders = s.orders := rfl

@[simp] theorem Part.setPlantCounters_ports (s : Part) (x : PlantCounters) : (s.setPlantCounters x).ports = s.ports := rfl
@[simp] theorem Part.setPlantCounters_fast (s : Part) (x : PlantCounters) : (s.setPlantCounters x).fast = s.fast := rfl
@[simp] theorem Part.setPlantCounters_store (s : Part) (x : PlantCounters) : (s.setPlantCounters x).store = s.store := rfl
@[simp] theorem Part.setPlantCounters_runners (s : Part) (x : PlantCounters) : (s.setPlantCounters x).runners = s.runners := rfl
@[simp] theorem Part.setPlantCounters_table (s : Part) (x : PlantCounters) : (s.setPlantCounters x).table = s.table := rfl
@[simp] theorem Part.setPlantCounters_boiler (s : Part) (x : PlantCounters) : (s.setPlantCounters x).boiler = s.boiler := rfl
@[simp] theorem Part.setPlantCounters_steam (s : Part) (x : PlantCounters) : (s.setPlantCounters x).steam = s.steam := rfl
@[simp] theorem Part.setPlantCounters_air (s : Part) (x : PlantCounters) : (s.setPlantCounters x).air = s.air := rfl
@[simp] theorem Part.setPlantCounters_comp (s : Part) (x : PlantCounters) : (s.setPlantCounters x).comp = s.comp := rfl
@[simp] theorem Part.setPlantCounters_loops (s : Part) (x : PlantCounters) : (s.setPlantCounters x).loops = s.loops := rfl
@[simp] theorem Part.setPlantCounters_trips (s : Part) (x : PlantCounters) : (s.setPlantCounters x).trips = s.trips := rfl
@[simp] theorem Part.setPlantCounters_notices (s : Part) (x : PlantCounters) : (s.setPlantCounters x).notices = s.notices := rfl
@[simp] theorem Part.setPlantCounters_mode (s : Part) (x : PlantCounters) : (s.setPlantCounters x).mode = s.mode := rfl
@[simp] theorem Part.setPlantCounters_live (s : Part) (x : PlantCounters) : (s.setPlantCounters x).live = s.live := rfl
@[simp] theorem Part.setPlantCounters_staged (s : Part) (x : PlantCounters) : (s.setPlantCounters x).staged = s.staged := rfl
@[simp] theorem Part.setPlantCounters_pins (s : Part) (x : PlantCounters) : (s.setPlantCounters x).pins = s.pins := rfl
@[simp] theorem Part.setPlantCounters_started (s : Part) (x : PlantCounters) : (s.setPlantCounters x).started = s.started := rfl
@[simp] theorem Part.setPlantCounters_clocks (s : Part) (x : PlantCounters) : (s.setPlantCounters x).clocks = s.clocks := rfl
@[simp] theorem Part.setPlantCounters_orders (s : Part) (x : PlantCounters) : (s.setPlantCounters x).orders = s.orders := rfl

@[simp] theorem Part.countFrameError_ports (s : Part) (p : Port) : (s.countFrameError p).ports = s.ports := rfl
@[simp] theorem Part.countFrameError_fast (s : Part) (p : Port) : (s.countFrameError p).fast = s.fast := rfl
@[simp] theorem Part.countFrameError_store (s : Part) (p : Port) : (s.countFrameError p).store = s.store := rfl
@[simp] theorem Part.countFrameError_runners (s : Part) (p : Port) : (s.countFrameError p).runners = s.runners := rfl
@[simp] theorem Part.countFrameError_table (s : Part) (p : Port) : (s.countFrameError p).table = s.table := rfl
@[simp] theorem Part.countFrameError_boiler (s : Part) (p : Port) : (s.countFrameError p).boiler = s.boiler := rfl
@[simp] theorem Part.countFrameError_steam (s : Part) (p : Port) : (s.countFrameError p).steam = s.steam := rfl
@[simp] theorem Part.countFrameError_air (s : Part) (p : Port) : (s.countFrameError p).air = s.air := rfl
@[simp] theorem Part.countFrameError_comp (s : Part) (p : Port) : (s.countFrameError p).comp = s.comp := rfl
@[simp] theorem Part.countFrameError_loops (s : Part) (p : Port) : (s.countFrameError p).loops = s.loops := rfl
@[simp] theorem Part.countFrameError_trips (s : Part) (p : Port) : (s.countFrameError p).trips = s.trips := rfl
@[simp] theorem Part.countFrameError_notices (s : Part) (p : Port) : (s.countFrameError p).notices = s.notices := rfl
@[simp] theorem Part.countFrameError_mode (s : Part) (p : Port) : (s.countFrameError p).mode = s.mode := rfl
@[simp] theorem Part.countFrameError_live (s : Part) (p : Port) : (s.countFrameError p).live = s.live := rfl
@[simp] theorem Part.countFrameError_staged (s : Part) (p : Port) : (s.countFrameError p).staged = s.staged := rfl
@[simp] theorem Part.countFrameError_pins (s : Part) (p : Port) : (s.countFrameError p).pins = s.pins := rfl
@[simp] theorem Part.countFrameError_started (s : Part) (p : Port) : (s.countFrameError p).started = s.started := rfl
@[simp] theorem Part.countFrameError_clocks (s : Part) (p : Port) : (s.countFrameError p).clocks = s.clocks := rfl
@[simp] theorem Part.countFrameError_orders (s : Part) (p : Port) : (s.countFrameError p).orders = s.orders := rfl

@[simp] theorem Part.countOverrun_ports (s : Part) (p : Port) : (s.countOverrun p).ports = s.ports := rfl
@[simp] theorem Part.countOverrun_fast (s : Part) (p : Port) : (s.countOverrun p).fast = s.fast := rfl
@[simp] theorem Part.countOverrun_store (s : Part) (p : Port) : (s.countOverrun p).store = s.store := rfl
@[simp] theorem Part.countOverrun_runners (s : Part) (p : Port) : (s.countOverrun p).runners = s.runners := rfl
@[simp] theorem Part.countOverrun_table (s : Part) (p : Port) : (s.countOverrun p).table = s.table := rfl
@[simp] theorem Part.countOverrun_boiler (s : Part) (p : Port) : (s.countOverrun p).boiler = s.boiler := rfl
@[simp] theorem Part.countOverrun_steam (s : Part) (p : Port) : (s.countOverrun p).steam = s.steam := rfl
@[simp] theorem Part.countOverrun_air (s : Part) (p : Port) : (s.countOverrun p).air = s.air := rfl
@[simp] theorem Part.countOverrun_comp (s : Part) (p : Port) : (s.countOverrun p).comp = s.comp := rfl
@[simp] theorem Part.countOverrun_loops (s : Part) (p : Port) : (s.countOverrun p).loops = s.loops := rfl
@[simp] theorem Part.countOverrun_trips (s : Part) (p : Port) : (s.countOverrun p).trips = s.trips := rfl
@[simp] theorem Part.countOverrun_notices (s : Part) (p : Port) : (s.countOverrun p).notices = s.notices := rfl
@[simp] theorem Part.countOverrun_mode (s : Part) (p : Port) : (s.countOverrun p).mode = s.mode := rfl
@[simp] theorem Part.countOverrun_live (s : Part) (p : Port) : (s.countOverrun p).live = s.live := rfl
@[simp] theorem Part.countOverrun_staged (s : Part) (p : Port) : (s.countOverrun p).staged = s.staged := rfl
@[simp] theorem Part.countOverrun_pins (s : Part) (p : Port) : (s.countOverrun p).pins = s.pins := rfl
@[simp] theorem Part.countOverrun_started (s : Part) (p : Port) : (s.countOverrun p).started = s.started := rfl
@[simp] theorem Part.countOverrun_clocks (s : Part) (p : Port) : (s.countOverrun p).clocks = s.clocks := rfl
@[simp] theorem Part.countOverrun_orders (s : Part) (p : Port) : (s.countOverrun p).orders = s.orders := rfl

/-! ## Reads after writes of indexed parts -/

@[simp] theorem Part.port_setPort (s : Part) (p q : Port) (x : PortState) :
    (s.setPort p x).port q = if q = p then x else s.port q := by simp [Part.port, Part.setPort]
@[simp] theorem Part.runner_setRunner (s : Part) (b c : Bay) (r : Runner) :
    (s.setRunner b r).runner c = if c = b then r else s.runner c := by simp [Part.runner, Part.setRunner]
@[simp] theorem Part.load_setLoad (s : Part) (l m : Load) (e : LoadEntry) :
    (s.setLoad l e).load m = if m = l then e else s.load m := by simp [Part.load, Part.setLoad]
@[simp] theorem Part.loop_setLoop (s : Part) (b c : Bay) (x : AirLoop) :
    (s.setLoop b x).loop c = if c = b then x else s.loop c := by simp [Part.loop, Part.setLoop]
@[simp] theorem Part.notice_setNotice (s : Part) (p q : Port) (n : Notice) :
    (s.setNotice p n).notice q = if q = p then n else s.notice q := by simp [Part.notice, Part.setNotice]
@[simp] theorem Part.list_setList (s : Part) (b c : Bay) (rs : List Record) :
    (s.setList b rs).list c = if c = b then rs else s.list c := by
  simp only [Part.list, Part.setList, PerBay.get_set]; split <;> rfl
@[simp] theorem Part.nextTag_setList (s : Part) (b c : Bay) (rs : List Record) :
    ((s.setList b rs).store.get c).nextTag = (s.store.get c).nextTag := by
  simp only [Part.setList, PerBay.get_set]; split <;> simp_all
@[simp] theorem Part.bayCounters_setBayCounters (s : Part) (b c : Bay) (x : BayCounters) :
    (s.setBayCounters b x).bayCounters c = if c = b then x else s.bayCounters c := by
  simp [Part.bayCounters, Part.setBayCounters]
@[simp] theorem Part.plant_setBayCounters (s : Part) (b : Bay) (x : BayCounters) :
    (s.setBayCounters b x).counters.plant = s.counters.plant := rfl
@[simp] theorem Part.plant_setPlantCounters (s : Part) (x : PlantCounters) :
    (s.setPlantCounters x).counters.plant = x := rfl
@[simp] theorem Part.bayCounters_setPlantCounters (s : Part) (b : Bay) (x : PlantCounters) :
    (s.setPlantCounters x).bayCounters b = s.bayCounters b := rfl

/-! ## Reads through fields that a write leaves -/

@[simp] theorem Part.port_setList (s : Part) (b : Bay) (rs : List Record) (q : Port) : (s.setList b rs).port q = s.port q := rfl
@[simp] theorem Part.port_setRunner (s : Part) (b : Bay) (r : Runner) (q : Port) : (s.setRunner b r).port q = s.port q := rfl
@[simp] theorem Part.port_setLoad (s : Part) (l : Load) (e : LoadEntry) (q : Port) : (s.setLoad l e).port q = s.port q := rfl
@[simp] theorem Part.port_setLoop (s : Part) (b : Bay) (x : AirLoop) (q : Port) : (s.setLoop b x).port q = s.port q := rfl
@[simp] theorem Part.port_setNotice (s : Part) (p : Port) (n : Notice) (q : Port) : (s.setNotice p n).port q = s.port q := rfl
@[simp] theorem Part.port_setBoiler (s : Part) (x : Boiler) (q : Port) : (s.setBoiler x).port q = s.port q := rfl
@[simp] theorem Part.port_setSteam (s : Part) (x : Steam) (q : Port) : (s.setSteam x).port q = s.port q := rfl
@[simp] theorem Part.port_setAir (s : Part) (x : Air) (q : Port) : (s.setAir x).port q = s.port q := rfl
@[simp] theorem Part.port_setComp (s : Part) (x : Compressor) (q : Port) : (s.setComp x).port q = s.port q := rfl
@[simp] theorem Part.port_setTrips (s : Part) (x : TripUnit) (q : Port) : (s.setTrips x).port q = s.port q := rfl
@[simp] theorem Part.port_setTable (s : Part) (x : LoadTable) (q : Port) : (s.setTable x).port q = s.port q := rfl
@[simp] theorem Part.port_setMode (s : Part) (m : Mode) (q : Port) : (s.setMode m).port q = s.port q := rfl
@[simp] theorem Part.port_setClocks (s : Part) (x : Clocks) (q : Port) : (s.setClocks x).port q = s.port q := rfl
@[simp] theorem Part.port_setPins (s : Part) (x : Pins) (q : Port) : (s.setPins x).port q = s.port q := rfl
@[simp] theorem Part.port_setBayCounters (s : Part) (b : Bay) (x : BayCounters) (q : Port) : (s.setBayCounters b x).port q = s.port q := rfl
@[simp] theorem Part.port_setPlantCounters (s : Part) (x : PlantCounters) (q : Port) : (s.setPlantCounters x).port q = s.port q := rfl
@[simp] theorem Part.port_countFrameError (s : Part) (p : Port) (q : Port) : (s.countFrameError p).port q = s.port q := rfl
@[simp] theorem Part.port_countOverrun (s : Part) (p : Port) (q : Port) : (s.countOverrun p).port q = s.port q := rfl

@[simp] theorem Part.runner_setPort (s : Part) (p : Port) (x : PortState) (c : Bay) : (s.setPort p x).runner c = s.runner c := rfl
@[simp] theorem Part.runner_setList (s : Part) (b : Bay) (rs : List Record) (c : Bay) : (s.setList b rs).runner c = s.runner c := rfl
@[simp] theorem Part.runner_setLoad (s : Part) (l : Load) (e : LoadEntry) (c : Bay) : (s.setLoad l e).runner c = s.runner c := rfl
@[simp] theorem Part.runner_setLoop (s : Part) (b : Bay) (x : AirLoop) (c : Bay) : (s.setLoop b x).runner c = s.runner c := rfl
@[simp] theorem Part.runner_setNotice (s : Part) (p : Port) (n : Notice) (c : Bay) : (s.setNotice p n).runner c = s.runner c := rfl
@[simp] theorem Part.runner_setBoiler (s : Part) (x : Boiler) (c : Bay) : (s.setBoiler x).runner c = s.runner c := rfl
@[simp] theorem Part.runner_setSteam (s : Part) (x : Steam) (c : Bay) : (s.setSteam x).runner c = s.runner c := rfl
@[simp] theorem Part.runner_setAir (s : Part) (x : Air) (c : Bay) : (s.setAir x).runner c = s.runner c := rfl
@[simp] theorem Part.runner_setComp (s : Part) (x : Compressor) (c : Bay) : (s.setComp x).runner c = s.runner c := rfl
@[simp] theorem Part.runner_setTrips (s : Part) (x : TripUnit) (c : Bay) : (s.setTrips x).runner c = s.runner c := rfl
@[simp] theorem Part.runner_setTable (s : Part) (x : LoadTable) (c : Bay) : (s.setTable x).runner c = s.runner c := rfl
@[simp] theorem Part.runner_setMode (s : Part) (m : Mode) (c : Bay) : (s.setMode m).runner c = s.runner c := rfl
@[simp] theorem Part.runner_setClocks (s : Part) (x : Clocks) (c : Bay) : (s.setClocks x).runner c = s.runner c := rfl
@[simp] theorem Part.runner_setPins (s : Part) (x : Pins) (c : Bay) : (s.setPins x).runner c = s.runner c := rfl
@[simp] theorem Part.runner_setBayCounters (s : Part) (b : Bay) (x : BayCounters) (c : Bay) : (s.setBayCounters b x).runner c = s.runner c := rfl
@[simp] theorem Part.runner_setPlantCounters (s : Part) (x : PlantCounters) (c : Bay) : (s.setPlantCounters x).runner c = s.runner c := rfl
@[simp] theorem Part.runner_countFrameError (s : Part) (p : Port) (c : Bay) : (s.countFrameError p).runner c = s.runner c := rfl
@[simp] theorem Part.runner_countOverrun (s : Part) (p : Port) (c : Bay) : (s.countOverrun p).runner c = s.runner c := rfl

@[simp] theorem Part.list_setPort (s : Part) (p : Port) (x : PortState) (c : Bay) : (s.setPort p x).list c = s.list c := rfl
@[simp] theorem Part.list_setRunner (s : Part) (b : Bay) (r : Runner) (c : Bay) : (s.setRunner b r).list c = s.list c := rfl
@[simp] theorem Part.list_setLoad (s : Part) (l : Load) (e : LoadEntry) (c : Bay) : (s.setLoad l e).list c = s.list c := rfl
@[simp] theorem Part.list_setLoop (s : Part) (b : Bay) (x : AirLoop) (c : Bay) : (s.setLoop b x).list c = s.list c := rfl
@[simp] theorem Part.list_setNotice (s : Part) (p : Port) (n : Notice) (c : Bay) : (s.setNotice p n).list c = s.list c := rfl
@[simp] theorem Part.list_setBoiler (s : Part) (x : Boiler) (c : Bay) : (s.setBoiler x).list c = s.list c := rfl
@[simp] theorem Part.list_setSteam (s : Part) (x : Steam) (c : Bay) : (s.setSteam x).list c = s.list c := rfl
@[simp] theorem Part.list_setAir (s : Part) (x : Air) (c : Bay) : (s.setAir x).list c = s.list c := rfl
@[simp] theorem Part.list_setComp (s : Part) (x : Compressor) (c : Bay) : (s.setComp x).list c = s.list c := rfl
@[simp] theorem Part.list_setTrips (s : Part) (x : TripUnit) (c : Bay) : (s.setTrips x).list c = s.list c := rfl
@[simp] theorem Part.list_setTable (s : Part) (x : LoadTable) (c : Bay) : (s.setTable x).list c = s.list c := rfl
@[simp] theorem Part.list_setMode (s : Part) (m : Mode) (c : Bay) : (s.setMode m).list c = s.list c := rfl
@[simp] theorem Part.list_setClocks (s : Part) (x : Clocks) (c : Bay) : (s.setClocks x).list c = s.list c := rfl
@[simp] theorem Part.list_setPins (s : Part) (x : Pins) (c : Bay) : (s.setPins x).list c = s.list c := rfl
@[simp] theorem Part.list_setBayCounters (s : Part) (b : Bay) (x : BayCounters) (c : Bay) : (s.setBayCounters b x).list c = s.list c := rfl
@[simp] theorem Part.list_setPlantCounters (s : Part) (x : PlantCounters) (c : Bay) : (s.setPlantCounters x).list c = s.list c := rfl
@[simp] theorem Part.list_countFrameError (s : Part) (p : Port) (c : Bay) : (s.countFrameError p).list c = s.list c := rfl
@[simp] theorem Part.list_countOverrun (s : Part) (p : Port) (c : Bay) : (s.countOverrun p).list c = s.list c := rfl

@[simp] theorem Part.load_setPort (s : Part) (p : Port) (x : PortState) (m : Load) : (s.setPort p x).load m = s.load m := rfl
@[simp] theorem Part.load_setList (s : Part) (b : Bay) (rs : List Record) (m : Load) : (s.setList b rs).load m = s.load m := rfl
@[simp] theorem Part.load_setRunner (s : Part) (b : Bay) (r : Runner) (m : Load) : (s.setRunner b r).load m = s.load m := rfl
@[simp] theorem Part.load_setLoop (s : Part) (b : Bay) (x : AirLoop) (m : Load) : (s.setLoop b x).load m = s.load m := rfl
@[simp] theorem Part.load_setNotice (s : Part) (p : Port) (n : Notice) (m : Load) : (s.setNotice p n).load m = s.load m := rfl
@[simp] theorem Part.load_setBoiler (s : Part) (x : Boiler) (m : Load) : (s.setBoiler x).load m = s.load m := rfl
@[simp] theorem Part.load_setSteam (s : Part) (x : Steam) (m : Load) : (s.setSteam x).load m = s.load m := rfl
@[simp] theorem Part.load_setAir (s : Part) (x : Air) (m : Load) : (s.setAir x).load m = s.load m := rfl
@[simp] theorem Part.load_setComp (s : Part) (x : Compressor) (m : Load) : (s.setComp x).load m = s.load m := rfl
@[simp] theorem Part.load_setTrips (s : Part) (x : TripUnit) (m : Load) : (s.setTrips x).load m = s.load m := rfl
@[simp] theorem Part.load_setMode (s : Part) (m : Mode) (m' : Load) : (s.setMode m).load m' = s.load m' := rfl
@[simp] theorem Part.load_setClocks (s : Part) (x : Clocks) (m : Load) : (s.setClocks x).load m = s.load m := rfl
@[simp] theorem Part.load_setPins (s : Part) (x : Pins) (m : Load) : (s.setPins x).load m = s.load m := rfl
@[simp] theorem Part.load_setBayCounters (s : Part) (b : Bay) (x : BayCounters) (m : Load) : (s.setBayCounters b x).load m = s.load m := rfl
@[simp] theorem Part.load_setPlantCounters (s : Part) (x : PlantCounters) (m : Load) : (s.setPlantCounters x).load m = s.load m := rfl
@[simp] theorem Part.load_countFrameError (s : Part) (p : Port) (m : Load) : (s.countFrameError p).load m = s.load m := rfl
@[simp] theorem Part.load_countOverrun (s : Part) (p : Port) (m : Load) : (s.countOverrun p).load m = s.load m := rfl

@[simp] theorem Part.loop_setPort (s : Part) (p : Port) (x : PortState) (c : Bay) : (s.setPort p x).loop c = s.loop c := rfl
@[simp] theorem Part.loop_setList (s : Part) (b : Bay) (rs : List Record) (c : Bay) : (s.setList b rs).loop c = s.loop c := rfl
@[simp] theorem Part.loop_setRunner (s : Part) (b : Bay) (r : Runner) (c : Bay) : (s.setRunner b r).loop c = s.loop c := rfl
@[simp] theorem Part.loop_setLoad (s : Part) (l : Load) (e : LoadEntry) (c : Bay) : (s.setLoad l e).loop c = s.loop c := rfl
@[simp] theorem Part.loop_setNotice (s : Part) (p : Port) (n : Notice) (c : Bay) : (s.setNotice p n).loop c = s.loop c := rfl
@[simp] theorem Part.loop_setBoiler (s : Part) (x : Boiler) (c : Bay) : (s.setBoiler x).loop c = s.loop c := rfl
@[simp] theorem Part.loop_setSteam (s : Part) (x : Steam) (c : Bay) : (s.setSteam x).loop c = s.loop c := rfl
@[simp] theorem Part.loop_setAir (s : Part) (x : Air) (c : Bay) : (s.setAir x).loop c = s.loop c := rfl
@[simp] theorem Part.loop_setComp (s : Part) (x : Compressor) (c : Bay) : (s.setComp x).loop c = s.loop c := rfl
@[simp] theorem Part.loop_setTrips (s : Part) (x : TripUnit) (c : Bay) : (s.setTrips x).loop c = s.loop c := rfl
@[simp] theorem Part.loop_setTable (s : Part) (x : LoadTable) (c : Bay) : (s.setTable x).loop c = s.loop c := rfl
@[simp] theorem Part.loop_setMode (s : Part) (m : Mode) (c : Bay) : (s.setMode m).loop c = s.loop c := rfl
@[simp] theorem Part.loop_setClocks (s : Part) (x : Clocks) (c : Bay) : (s.setClocks x).loop c = s.loop c := rfl
@[simp] theorem Part.loop_setPins (s : Part) (x : Pins) (c : Bay) : (s.setPins x).loop c = s.loop c := rfl
@[simp] theorem Part.loop_setBayCounters (s : Part) (b : Bay) (x : BayCounters) (c : Bay) : (s.setBayCounters b x).loop c = s.loop c := rfl
@[simp] theorem Part.loop_setPlantCounters (s : Part) (x : PlantCounters) (c : Bay) : (s.setPlantCounters x).loop c = s.loop c := rfl
@[simp] theorem Part.loop_countFrameError (s : Part) (p : Port) (c : Bay) : (s.countFrameError p).loop c = s.loop c := rfl
@[simp] theorem Part.loop_countOverrun (s : Part) (p : Port) (c : Bay) : (s.countOverrun p).loop c = s.loop c := rfl

@[simp] theorem Part.notice_setPort (s : Part) (p : Port) (x : PortState) (q : Port) : (s.setPort p x).notice q = s.notice q := rfl
@[simp] theorem Part.notice_setList (s : Part) (b : Bay) (rs : List Record) (q : Port) : (s.setList b rs).notice q = s.notice q := rfl
@[simp] theorem Part.notice_setRunner (s : Part) (b : Bay) (r : Runner) (q : Port) : (s.setRunner b r).notice q = s.notice q := rfl
@[simp] theorem Part.notice_setLoad (s : Part) (l : Load) (e : LoadEntry) (q : Port) : (s.setLoad l e).notice q = s.notice q := rfl
@[simp] theorem Part.notice_setLoop (s : Part) (b : Bay) (x : AirLoop) (q : Port) : (s.setLoop b x).notice q = s.notice q := rfl
@[simp] theorem Part.notice_setBoiler (s : Part) (x : Boiler) (q : Port) : (s.setBoiler x).notice q = s.notice q := rfl
@[simp] theorem Part.notice_setSteam (s : Part) (x : Steam) (q : Port) : (s.setSteam x).notice q = s.notice q := rfl
@[simp] theorem Part.notice_setAir (s : Part) (x : Air) (q : Port) : (s.setAir x).notice q = s.notice q := rfl
@[simp] theorem Part.notice_setComp (s : Part) (x : Compressor) (q : Port) : (s.setComp x).notice q = s.notice q := rfl
@[simp] theorem Part.notice_setTrips (s : Part) (x : TripUnit) (q : Port) : (s.setTrips x).notice q = s.notice q := rfl
@[simp] theorem Part.notice_setTable (s : Part) (x : LoadTable) (q : Port) : (s.setTable x).notice q = s.notice q := rfl
@[simp] theorem Part.notice_setMode (s : Part) (m : Mode) (q : Port) : (s.setMode m).notice q = s.notice q := rfl
@[simp] theorem Part.notice_setClocks (s : Part) (x : Clocks) (q : Port) : (s.setClocks x).notice q = s.notice q := rfl
@[simp] theorem Part.notice_setPins (s : Part) (x : Pins) (q : Port) : (s.setPins x).notice q = s.notice q := rfl
@[simp] theorem Part.notice_setBayCounters (s : Part) (b : Bay) (x : BayCounters) (q : Port) : (s.setBayCounters b x).notice q = s.notice q := rfl
@[simp] theorem Part.notice_setPlantCounters (s : Part) (x : PlantCounters) (q : Port) : (s.setPlantCounters x).notice q = s.notice q := rfl
@[simp] theorem Part.notice_countFrameError (s : Part) (p : Port) (q : Port) : (s.countFrameError p).notice q = s.notice q := rfl
@[simp] theorem Part.notice_countOverrun (s : Part) (p : Port) (q : Port) : (s.countOverrun p).notice q = s.notice q := rfl

@[simp] theorem Part.bayCounters_setPort (s : Part) (p : Port) (x : PortState) (c : Bay) : (s.setPort p x).bayCounters c = s.bayCounters c := rfl
@[simp] theorem Part.bayCounters_setList (s : Part) (b : Bay) (rs : List Record) (c : Bay) : (s.setList b rs).bayCounters c = s.bayCounters c := rfl
@[simp] theorem Part.bayCounters_setRunner (s : Part) (b : Bay) (r : Runner) (c : Bay) : (s.setRunner b r).bayCounters c = s.bayCounters c := rfl
@[simp] theorem Part.bayCounters_setLoad (s : Part) (l : Load) (e : LoadEntry) (c : Bay) : (s.setLoad l e).bayCounters c = s.bayCounters c := rfl
@[simp] theorem Part.bayCounters_setLoop (s : Part) (b : Bay) (x : AirLoop) (c : Bay) : (s.setLoop b x).bayCounters c = s.bayCounters c := rfl
@[simp] theorem Part.bayCounters_setNotice (s : Part) (p : Port) (n : Notice) (c : Bay) : (s.setNotice p n).bayCounters c = s.bayCounters c := rfl
@[simp] theorem Part.bayCounters_setBoiler (s : Part) (x : Boiler) (c : Bay) : (s.setBoiler x).bayCounters c = s.bayCounters c := rfl
@[simp] theorem Part.bayCounters_setSteam (s : Part) (x : Steam) (c : Bay) : (s.setSteam x).bayCounters c = s.bayCounters c := rfl
@[simp] theorem Part.bayCounters_setAir (s : Part) (x : Air) (c : Bay) : (s.setAir x).bayCounters c = s.bayCounters c := rfl
@[simp] theorem Part.bayCounters_setComp (s : Part) (x : Compressor) (c : Bay) : (s.setComp x).bayCounters c = s.bayCounters c := rfl
@[simp] theorem Part.bayCounters_setTrips (s : Part) (x : TripUnit) (c : Bay) : (s.setTrips x).bayCounters c = s.bayCounters c := rfl
@[simp] theorem Part.bayCounters_setTable (s : Part) (x : LoadTable) (c : Bay) : (s.setTable x).bayCounters c = s.bayCounters c := rfl
@[simp] theorem Part.bayCounters_setMode (s : Part) (m : Mode) (c : Bay) : (s.setMode m).bayCounters c = s.bayCounters c := rfl
@[simp] theorem Part.bayCounters_setClocks (s : Part) (x : Clocks) (c : Bay) : (s.setClocks x).bayCounters c = s.bayCounters c := rfl
@[simp] theorem Part.bayCounters_setPins (s : Part) (x : Pins) (c : Bay) : (s.setPins x).bayCounters c = s.bayCounters c := rfl

@[simp] theorem Part.current_setPort (s : Part) (p : Port) (x : PortState) (c : Bay) : (s.setPort p x).current c = s.current c := rfl
@[simp] theorem Part.current_setRunner (s : Part) (b : Bay) (r : Runner) (c : Bay) : (s.setRunner b r).current c = s.current c := rfl
@[simp] theorem Part.current_setLoad (s : Part) (l : Load) (e : LoadEntry) (c : Bay) : (s.setLoad l e).current c = s.current c := rfl
@[simp] theorem Part.current_setLoop (s : Part) (b : Bay) (x : AirLoop) (c : Bay) : (s.setLoop b x).current c = s.current c := rfl
@[simp] theorem Part.current_setNotice (s : Part) (p : Port) (n : Notice) (c : Bay) : (s.setNotice p n).current c = s.current c := rfl
@[simp] theorem Part.current_setBoiler (s : Part) (x : Boiler) (c : Bay) : (s.setBoiler x).current c = s.current c := rfl
@[simp] theorem Part.current_setSteam (s : Part) (x : Steam) (c : Bay) : (s.setSteam x).current c = s.current c := rfl
@[simp] theorem Part.current_setAir (s : Part) (x : Air) (c : Bay) : (s.setAir x).current c = s.current c := rfl
@[simp] theorem Part.current_setComp (s : Part) (x : Compressor) (c : Bay) : (s.setComp x).current c = s.current c := rfl
@[simp] theorem Part.current_setTrips (s : Part) (x : TripUnit) (c : Bay) : (s.setTrips x).current c = s.current c := rfl
@[simp] theorem Part.current_setTable (s : Part) (x : LoadTable) (c : Bay) : (s.setTable x).current c = s.current c := rfl
@[simp] theorem Part.current_setMode (s : Part) (m : Mode) (c : Bay) : (s.setMode m).current c = s.current c := rfl
@[simp] theorem Part.current_setClocks (s : Part) (x : Clocks) (c : Bay) : (s.setClocks x).current c = s.current c := rfl
@[simp] theorem Part.current_setPins (s : Part) (x : Pins) (c : Bay) : (s.setPins x).current c = s.current c := rfl
@[simp] theorem Part.current_setBayCounters (s : Part) (b : Bay) (x : BayCounters) (c : Bay) : (s.setBayCounters b x).current c = s.current c := rfl
@[simp] theorem Part.current_setPlantCounters (s : Part) (x : PlantCounters) (c : Bay) : (s.setPlantCounters x).current c = s.current c := rfl
@[simp] theorem Part.current_countFrameError (s : Part) (p : Port) (c : Bay) : (s.countFrameError p).current c = s.current c := rfl
@[simp] theorem Part.current_countOverrun (s : Part) (p : Port) (c : Bay) : (s.countOverrun p).current c = s.current c := rfl

/-- A command that has run: the part changed by its effect, the queue as it was. -/
@[simp] theorem State.run_next (s : State) (f : Part → Part) : s.run f = .next ⟨f s.part, s.pending⟩ := rfl

end Sys2Proof.Machine
end

