-- ==== Sys2Proof/Laws/Frames.lean ====
section
/-! SUPPORT. Sys2Proof/Laws/Frames.lean: for each shared operation, once, the fields of the part that it can never change.
Each lemma is a set of rewrite rules, so a proof about one field passes over every operation that does not touch it. -/

namespace Sys2Proof.Machine

/-- A fold of steps that each leave a value leaves it. -/
theorem foldl_keeps {α β γ : Type} (f : α → β) (g : α → γ → α) (h : ∀ a c, f (g a c) = f a) (l : List γ) (a : α) :
    f (l.foldl g a) = f a := by
  induction l generalizing a with
  | nil => rfl
  | cons c l ih => simp [ih, h]

@[simp] theorem Part.takeOrder_frame (s : Part) :
    s.takeOrder.2.ports = s.ports ∧ s.takeOrder.2.fast = s.fast ∧ s.takeOrder.2.store = s.store ∧
    s.takeOrder.2.runners = s.runners ∧ s.takeOrder.2.table = s.table ∧ s.takeOrder.2.boiler = s.boiler ∧
    s.takeOrder.2.steam = s.steam ∧ s.takeOrder.2.air = s.air ∧ s.takeOrder.2.comp = s.comp ∧
    s.takeOrder.2.loops = s.loops ∧ s.takeOrder.2.trips = s.trips ∧ s.takeOrder.2.notices = s.notices ∧
    s.takeOrder.2.mode = s.mode ∧ s.takeOrder.2.live = s.live ∧ s.takeOrder.2.staged = s.staged ∧
    s.takeOrder.2.counters = s.counters ∧ s.takeOrder.2.pins = s.pins ∧ s.takeOrder.2.started = s.started ∧
    s.takeOrder.2.clocks = s.clocks := by
  unfold Part.takeOrder; split <;> simp

theorem Part.handPlant_eq (s : Part) (m : Bool) :
    s.handPlant m = s.takeOrder.1.foldl (fun s b => s.setPlantCause b m) s.takeOrder.2 := rfl

@[simp] theorem Part.refuse_eq (s : Part) (r : Result) : s.refuse r = (s, r, []) := rfl
@[simp] theorem Part.accept_eq (s : Part) : s.accept = (s, .ok, []) := rfl

@[simp] theorem Part.raiseBay_frame (s : Part) (b : Bay) (f : BayNote) :
    (s.raiseBay b f).ports = s.ports ∧ (s.raiseBay b f).fast = s.fast ∧ (s.raiseBay b f).store = s.store ∧
      (s.raiseBay b f).runners = s.runners ∧ (s.raiseBay b f).table = s.table ∧
      (s.raiseBay b f).boiler = s.boiler ∧ (s.raiseBay b f).steam = s.steam ∧ (s.raiseBay b f).air = s.air ∧
      (s.raiseBay b f).comp = s.comp ∧ (s.raiseBay b f).loops = s.loops ∧ (s.raiseBay b f).trips = s.trips ∧
      (s.raiseBay b f).mode = s.mode ∧ (s.raiseBay b f).live = s.live ∧ (s.raiseBay b f).staged = s.staged ∧
      (s.raiseBay b f).counters = s.counters ∧ (s.raiseBay b f).pins = s.pins ∧ (s.raiseBay b f).started = s.started ∧
      (s.raiseBay b f).clocks = s.clocks ∧ (s.raiseBay b f).orders = s.orders := by
  refine ⟨?_, ?_, ?_, ?_, ?_, ?_, ?_, ?_, ?_, ?_, ?_, ?_, ?_, ?_, ?_, ?_, ?_, ?_, ?_⟩ <;>
    (unfold Part.raiseBay; (try dsimp only); (repeat' split) <;> simp)

@[simp] theorem Part.raiseSp_frame (s : Part) (f : SpNote) :
    (s.raiseSp f).ports = s.ports ∧ (s.raiseSp f).fast = s.fast ∧ (s.raiseSp f).store = s.store ∧
      (s.raiseSp f).runners = s.runners ∧ (s.raiseSp f).table = s.table ∧ (s.raiseSp f).boiler = s.boiler ∧
      (s.raiseSp f).steam = s.steam ∧ (s.raiseSp f).air = s.air ∧ (s.raiseSp f).comp = s.comp ∧
      (s.raiseSp f).loops = s.loops ∧ (s.raiseSp f).trips = s.trips ∧ (s.raiseSp f).mode = s.mode ∧
      (s.raiseSp f).live = s.live ∧ (s.raiseSp f).staged = s.staged ∧ (s.raiseSp f).counters = s.counters ∧
      (s.raiseSp f).pins = s.pins ∧ (s.raiseSp f).started = s.started ∧ (s.raiseSp f).clocks = s.clocks ∧
      (s.raiseSp f).orders = s.orders := by
  refine ⟨?_, ?_, ?_, ?_, ?_, ?_, ?_, ?_, ?_, ?_, ?_, ?_, ?_, ?_, ?_, ?_, ?_, ?_, ?_⟩ <;>
    (unfold Part.raiseSp; (try dsimp only); (repeat' split) <;> simp)

@[simp] theorem Part.raisePlantNonIdle_frame (s : Part) :
    s.raisePlantNonIdle.ports = s.ports ∧ s.raisePlantNonIdle.fast = s.fast ∧
      s.raisePlantNonIdle.store = s.store ∧ s.raisePlantNonIdle.runners = s.runners ∧
      s.raisePlantNonIdle.table = s.table ∧ s.raisePlantNonIdle.boiler = s.boiler ∧
      s.raisePlantNonIdle.steam = s.steam ∧ s.raisePlantNonIdle.air = s.air ∧ s.raisePlantNonIdle.comp = s.comp ∧
      s.raisePlantNonIdle.loops = s.loops ∧ s.raisePlantNonIdle.trips = s.trips ∧
      s.raisePlantNonIdle.mode = s.mode ∧ s.raisePlantNonIdle.live = s.live ∧
      s.raisePlantNonIdle.staged = s.staged ∧ s.raisePlantNonIdle.counters = s.counters ∧
      s.raisePlantNonIdle.pins = s.pins ∧ s.raisePlantNonIdle.started = s.started ∧
      s.raisePlantNonIdle.clocks = s.clocks ∧
      s.raisePlantNonIdle.orders = s.orders := by
  unfold Part.raisePlantNonIdle
  refine ⟨?_, ?_, ?_, ?_, ?_, ?_, ?_, ?_, ?_, ?_, ?_, ?_, ?_, ?_, ?_, ?_, ?_, ?_, ?_⟩ <;>
    exact foldl_keeps _ _ (fun a c => by split <;> rfl) _ _

@[simp] theorem Part.countEnd_frame (s : Part) (b : Bay) (o : RecordEnd) :
    (s.countEnd b o).ports = s.ports ∧ (s.countEnd b o).fast = s.fast ∧ (s.countEnd b o).store = s.store ∧
      (s.countEnd b o).runners = s.runners ∧ (s.countEnd b o).table = s.table ∧
      (s.countEnd b o).boiler = s.boiler ∧ (s.countEnd b o).steam = s.steam ∧ (s.countEnd b o).air = s.air ∧
      (s.countEnd b o).comp = s.comp ∧ (s.countEnd b o).loops = s.loops ∧ (s.countEnd b o).trips = s.trips ∧
      (s.countEnd b o).notices = s.notices ∧ (s.countEnd b o).mode = s.mode ∧ (s.countEnd b o).live = s.live ∧
      (s.countEnd b o).staged = s.staged ∧ (s.countEnd b o).pins = s.pins ∧
      (s.countEnd b o).started = s.started ∧ (s.countEnd b o).clocks = s.clocks ∧
      (s.countEnd b o).orders = s.orders := by
  refine ⟨?_, ?_, ?_, ?_, ?_, ?_, ?_, ?_, ?_, ?_, ?_, ?_, ?_, ?_, ?_, ?_, ?_, ?_, ?_⟩ <;>
    (unfold Part.countEnd; (try dsimp only); (repeat' split) <;> simp)

@[simp] theorem Part.recordFault_frame (s : Part) (c : FaultCause) :
    (s.recordFault c).ports = s.ports ∧ (s.recordFault c).fast = s.fast ∧ (s.recordFault c).store = s.store ∧
      (s.recordFault c).runners = s.runners ∧ (s.recordFault c).table = s.table ∧
      (s.recordFault c).boiler = s.boiler ∧ (s.recordFault c).steam = s.steam ∧ (s.recordFault c).air = s.air ∧
      (s.recordFault c).comp = s.comp ∧ (s.recordFault c).loops = s.loops ∧ (s.recordFault c).mode = s.mode ∧
      (s.recordFault c).live = s.live ∧ (s.recordFault c).staged = s.staged ∧
      (s.recordFault c).counters = s.counters ∧ (s.recordFault c).pins = s.pins ∧
      (s.recordFault c).started = s.started ∧
      (s.recordFault c).clocks = s.clocks ∧ (s.recordFault c).orders = s.orders := by
  refine ⟨?_, ?_, ?_, ?_, ?_, ?_, ?_, ?_, ?_, ?_, ?_, ?_, ?_, ?_, ?_, ?_, ?_, ?_⟩ <;>
    (unfold Part.recordFault; (try dsimp only); (repeat' split) <;> simp)

@[simp] theorem Part.countTrip_frame (s : Part) (t : Trip) :
    (s.countTrip t).ports = s.ports ∧ (s.countTrip t).fast = s.fast ∧ (s.countTrip t).store = s.store ∧
      (s.countTrip t).runners = s.runners ∧ (s.countTrip t).table = s.table ∧ (s.countTrip t).boiler = s.boiler ∧
      (s.countTrip t).steam = s.steam ∧ (s.countTrip t).air = s.air ∧ (s.countTrip t).comp = s.comp ∧
      (s.countTrip t).loops = s.loops ∧ (s.countTrip t).mode = s.mode ∧ (s.countTrip t).live = s.live ∧
      (s.countTrip t).staged = s.staged ∧ (s.countTrip t).pins = s.pins ∧ (s.countTrip t).started = s.started ∧
      (s.countTrip t).clocks = s.clocks ∧
      (s.countTrip t).orders = s.orders := by
  refine ⟨?_, ?_, ?_, ?_, ?_, ?_, ?_, ?_, ?_, ?_, ?_, ?_, ?_, ?_, ?_, ?_, ?_⟩ <;>
    (unfold Part.countTrip; (try dsimp only); (repeat' split) <;> simp)

@[simp] theorem Part.refreshArming_frame (s : Part) :
    s.refreshArming.ports = s.ports ∧ s.refreshArming.fast = s.fast ∧ s.refreshArming.store = s.store ∧
      s.refreshArming.runners = s.runners ∧ s.refreshArming.table = s.table ∧ s.refreshArming.boiler = s.boiler ∧
      s.refreshArming.steam = s.steam ∧ s.refreshArming.air = s.air ∧ s.refreshArming.comp = s.comp ∧
      s.refreshArming.loops = s.loops ∧ s.refreshArming.notices = s.notices ∧ s.refreshArming.mode = s.mode ∧
      s.refreshArming.live = s.live ∧ s.refreshArming.staged = s.staged ∧ s.refreshArming.counters = s.counters ∧
      s.refreshArming.pins = s.pins ∧ s.refreshArming.started = s.started ∧ s.refreshArming.clocks = s.clocks ∧
      s.refreshArming.orders = s.orders := by
  refine ⟨?_, ?_, ?_, ?_, ?_, ?_, ?_, ?_, ?_, ?_, ?_, ?_, ?_, ?_, ?_, ?_, ?_, ?_, ?_⟩ <;>
    (unfold Part.refreshArming; (try dsimp only); (repeat' split) <;> simp)

@[simp] theorem Part.divideHeadroom_frame (s : Part) :
    s.divideHeadroom.ports = s.ports ∧ s.divideHeadroom.fast = s.fast ∧ s.divideHeadroom.store = s.store ∧
      s.divideHeadroom.runners = s.runners ∧ s.divideHeadroom.boiler = s.boiler ∧
      s.divideHeadroom.steam = s.steam ∧ s.divideHeadroom.air = s.air ∧ s.divideHeadroom.comp = s.comp ∧
      s.divideHeadroom.loops = s.loops ∧ s.divideHeadroom.trips = s.trips ∧ s.divideHeadroom.notices = s.notices ∧
      s.divideHeadroom.mode = s.mode ∧ s.divideHeadroom.live = s.live ∧ s.divideHeadroom.staged = s.staged ∧
      s.divideHeadroom.counters = s.counters ∧ s.divideHeadroom.pins = s.pins ∧ s.divideHeadroom.started = s.started ∧
      s.divideHeadroom.clocks = s.clocks ∧ s.divideHeadroom.orders = s.orders := by
  refine ⟨?_, ?_, ?_, ?_, ?_, ?_, ?_, ?_, ?_, ?_, ?_, ?_, ?_, ?_, ?_, ?_, ?_, ?_, ?_⟩ <;>
    (unfold Part.divideHeadroom; (try dsimp only); (repeat' split) <;> simp)

@[simp] theorem Part.enterManual_frame (s : Part) :
    s.enterManual.ports = s.ports ∧ s.enterManual.fast = s.fast ∧ s.enterManual.store = s.store ∧
      s.enterManual.runners = s.runners ∧ s.enterManual.steam = s.steam ∧ s.enterManual.air = s.air ∧
      s.enterManual.comp = s.comp ∧ s.enterManual.loops = s.loops ∧ s.enterManual.live = s.live ∧
      s.enterManual.staged = s.staged ∧ s.enterManual.counters = s.counters ∧ s.enterManual.pins = s.pins ∧
      s.enterManual.started = s.started ∧
      s.enterManual.clocks = s.clocks ∧ s.enterManual.orders = s.orders := by
  refine ⟨?_, ?_, ?_, ?_, ?_, ?_, ?_, ?_, ?_, ?_, ?_, ?_, ?_, ?_, ?_⟩ <;>
    (unfold Part.enterManual; (try dsimp only); (repeat' split) <;> simp)

@[simp] theorem Part.completionTest_frame (s : Part) :
    s.completionTest.ports = s.ports ∧ s.completionTest.fast = s.fast ∧ s.completionTest.store = s.store ∧
      s.completionTest.runners = s.runners ∧ s.completionTest.steam = s.steam ∧ s.completionTest.air = s.air ∧
      s.completionTest.comp = s.comp ∧ s.completionTest.loops = s.loops ∧ s.completionTest.live = s.live ∧
      s.completionTest.staged = s.staged ∧ s.completionTest.counters = s.counters ∧
      s.completionTest.pins = s.pins ∧ s.completionTest.started = s.started ∧
      s.completionTest.clocks = s.clocks ∧ s.completionTest.orders = s.orders := by
  refine ⟨?_, ?_, ?_, ?_, ?_, ?_, ?_, ?_, ?_, ?_, ?_, ?_, ?_, ?_, ?_⟩ <;>
    (unfold Part.completionTest; (try dsimp only); (repeat' split) <;> simp)

@[simp] theorem Part.dropBoilerRequest_frame (s : Part) :
    s.dropBoilerRequest.ports = s.ports ∧ s.dropBoilerRequest.fast = s.fast ∧
      s.dropBoilerRequest.store = s.store ∧ s.dropBoilerRequest.runners = s.runners ∧
      s.dropBoilerRequest.boiler = s.boiler ∧ s.dropBoilerRequest.steam = s.steam ∧
      s.dropBoilerRequest.air = s.air ∧ s.dropBoilerRequest.comp = s.comp ∧ s.dropBoilerRequest.loops = s.loops ∧
      s.dropBoilerRequest.trips = s.trips ∧ s.dropBoilerRequest.notices = s.notices ∧
      s.dropBoilerRequest.mode = s.mode ∧ s.dropBoilerRequest.live = s.live ∧
      s.dropBoilerRequest.staged = s.staged ∧ s.dropBoilerRequest.counters = s.counters ∧
      s.dropBoilerRequest.pins = s.pins ∧ s.dropBoilerRequest.started = s.started ∧
      s.dropBoilerRequest.clocks = s.clocks ∧
      s.dropBoilerRequest.orders = s.orders := by
  refine ⟨?_, ?_, ?_, ?_, ?_, ?_, ?_, ?_, ?_, ?_, ?_, ?_, ?_, ?_, ?_, ?_, ?_, ?_, ?_⟩ <;>
    (unfold Part.dropBoilerRequest; (try dsimp only); (repeat' split) <;> simp)

@[simp] theorem Part.forceBoilerHeater_frame (s : Part) :
    s.forceBoilerHeater.ports = s.ports ∧ s.forceBoilerHeater.fast = s.fast ∧
      s.forceBoilerHeater.store = s.store ∧ s.forceBoilerHeater.runners = s.runners ∧
      s.forceBoilerHeater.boiler = s.boiler ∧ s.forceBoilerHeater.steam = s.steam ∧
      s.forceBoilerHeater.air = s.air ∧ s.forceBoilerHeater.comp = s.comp ∧ s.forceBoilerHeater.loops = s.loops ∧
      s.forceBoilerHeater.trips = s.trips ∧ s.forceBoilerHeater.notices = s.notices ∧
      s.forceBoilerHeater.mode = s.mode ∧ s.forceBoilerHeater.live = s.live ∧
      s.forceBoilerHeater.staged = s.staged ∧ s.forceBoilerHeater.counters = s.counters ∧
      s.forceBoilerHeater.pins = s.pins ∧ s.forceBoilerHeater.started = s.started ∧
      s.forceBoilerHeater.clocks = s.clocks ∧
      s.forceBoilerHeater.orders = s.orders := by
  refine ⟨?_, ?_, ?_, ?_, ?_, ?_, ?_, ?_, ?_, ?_, ?_, ?_, ?_, ?_, ?_, ?_, ?_, ?_, ?_⟩ <;>
    (unfold Part.forceBoilerHeater; (try dsimp only); (repeat' split) <;> simp)

@[simp] theorem Part.lockout_frame (s : Part) :
    s.lockout.ports = s.ports ∧ s.lockout.fast = s.fast ∧ s.lockout.store = s.store ∧
      s.lockout.runners = s.runners ∧ s.lockout.air = s.air ∧ s.lockout.comp = s.comp ∧
      s.lockout.loops = s.loops ∧ s.lockout.live = s.live ∧ s.lockout.staged = s.staged ∧
      s.lockout.counters = s.counters ∧ s.lockout.pins = s.pins ∧ s.lockout.started = s.started ∧
      s.lockout.clocks = s.clocks ∧
      s.lockout.orders = s.orders := by
  refine ⟨?_, ?_, ?_, ?_, ?_, ?_, ?_, ?_, ?_, ?_, ?_, ?_, ?_, ?_⟩ <;>
    (unfold Part.lockout; (try dsimp only); (repeat' split) <;> simp)

@[simp] theorem Part.activateBoiler_frame (s : Part) (t : Trip) :
    (s.activateBoiler t).ports = s.ports ∧ (s.activateBoiler t).fast = s.fast ∧
      (s.activateBoiler t).store = s.store ∧ (s.activateBoiler t).runners = s.runners ∧
      (s.activateBoiler t).air = s.air ∧ (s.activateBoiler t).comp = s.comp ∧
      (s.activateBoiler t).loops = s.loops ∧ (s.activateBoiler t).live = s.live ∧
      (s.activateBoiler t).staged = s.staged ∧ (s.activateBoiler t).pins = s.pins ∧
      (s.activateBoiler t).started = s.started ∧
      (s.activateBoiler t).clocks = s.clocks ∧ (s.activateBoiler t).orders = s.orders := by
  refine ⟨?_, ?_, ?_, ?_, ?_, ?_, ?_, ?_, ?_, ?_, ?_, ?_, ?_⟩ <;>
    (unfold Part.activateBoiler; (try dsimp only); (repeat' split) <;> simp)

@[simp] theorem Part.rearm_frame (s : Part) :
    s.rearm.ports = s.ports ∧ s.rearm.fast = s.fast ∧ s.rearm.store = s.store ∧ s.rearm.runners = s.runners ∧
      s.rearm.air = s.air ∧ s.rearm.comp = s.comp ∧ s.rearm.loops = s.loops ∧ s.rearm.live = s.live ∧
      s.rearm.staged = s.staged ∧ s.rearm.pins = s.pins ∧ s.rearm.started = s.started ∧
      s.rearm.clocks = s.clocks ∧ s.rearm.orders = s.orders := by
  refine ⟨?_, ?_, ?_, ?_, ?_, ?_, ?_, ?_, ?_, ?_, ?_, ?_, ?_⟩ <;>
    (unfold Part.rearm; (try dsimp only); (repeat' split) <;> simp)

@[simp] theorem Part.allocate_frame (s : Part) :
    s.allocate.ports = s.ports ∧ s.allocate.fast = s.fast ∧ s.allocate.store = s.store ∧
      s.allocate.runners = s.runners ∧ s.allocate.air = s.air ∧ s.allocate.comp = s.comp ∧
      s.allocate.loops = s.loops ∧ s.allocate.live = s.live ∧ s.allocate.staged = s.staged ∧
      s.allocate.pins = s.pins ∧ s.allocate.started = s.started ∧ s.allocate.clocks = s.clocks ∧
      s.allocate.orders = s.orders := by
  refine ⟨?_, ?_, ?_, ?_, ?_, ?_, ?_, ?_, ?_, ?_, ?_, ?_, ?_⟩ <;>
    (unfold Part.allocate; (try dsimp only); (repeat' split) <;> simp)

@[simp] theorem Part.countClipped_frame (s : Part) (l : Load) :
    (s.countClipped l).ports = s.ports ∧ (s.countClipped l).fast = s.fast ∧ (s.countClipped l).store = s.store ∧
      (s.countClipped l).runners = s.runners ∧ (s.countClipped l).table = s.table ∧
      (s.countClipped l).boiler = s.boiler ∧ (s.countClipped l).steam = s.steam ∧ (s.countClipped l).air = s.air ∧
      (s.countClipped l).comp = s.comp ∧ (s.countClipped l).loops = s.loops ∧ (s.countClipped l).trips = s.trips ∧
      (s.countClipped l).notices = s.notices ∧ (s.countClipped l).mode = s.mode ∧
      (s.countClipped l).live = s.live ∧ (s.countClipped l).staged = s.staged ∧
      (s.countClipped l).pins = s.pins ∧ (s.countClipped l).started = s.started ∧
      (s.countClipped l).clocks = s.clocks ∧ (s.countClipped l).orders = s.orders := by
  refine ⟨?_, ?_, ?_, ?_, ?_, ?_, ?_, ?_, ?_, ?_, ?_, ?_, ?_, ?_, ?_, ?_, ?_, ?_, ?_⟩ <;>
    (unfold Part.countClipped; (try dsimp only); (repeat' split) <;> simp)

@[simp] theorem Part.deliver_frame (s : Part) (l : Load) (q : Nat) :
    (s.deliver l q).ports = s.ports ∧ (s.deliver l q).fast = s.fast ∧ (s.deliver l q).store = s.store ∧
      (s.deliver l q).runners = s.runners ∧ (s.deliver l q).air = s.air ∧ (s.deliver l q).comp = s.comp ∧
      (s.deliver l q).loops = s.loops ∧ (s.deliver l q).live = s.live ∧ (s.deliver l q).staged = s.staged ∧
      (s.deliver l q).pins = s.pins ∧ (s.deliver l q).started = s.started ∧ (s.deliver l q).clocks = s.clocks ∧
      (s.deliver l q).orders = s.orders := by
  refine ⟨?_, ?_, ?_, ?_, ?_, ?_, ?_, ?_, ?_, ?_, ?_, ?_, ?_⟩ <;>
    (unfold Part.deliver; (try dsimp only); (repeat' split) <;> simp)

@[simp] theorem Part.setBoilerState_frame (s : Part) (x : Boiler) :
    (s.setBoilerState x).ports = s.ports ∧ (s.setBoilerState x).fast = s.fast ∧
      (s.setBoilerState x).store = s.store ∧ (s.setBoilerState x).runners = s.runners ∧
      (s.setBoilerState x).air = s.air ∧ (s.setBoilerState x).comp = s.comp ∧
      (s.setBoilerState x).loops = s.loops ∧ (s.setBoilerState x).live = s.live ∧
      (s.setBoilerState x).staged = s.staged ∧ (s.setBoilerState x).pins = s.pins ∧
      (s.setBoilerState x).started = s.started ∧
      (s.setBoilerState x).clocks = s.clocks ∧ (s.setBoilerState x).orders = s.orders := by
  refine ⟨?_, ?_, ?_, ?_, ?_, ?_, ?_, ?_, ?_, ?_, ?_, ?_, ?_⟩ <;>
    (unfold Part.setBoilerState; (try dsimp only); (repeat' split) <;> simp)

@[simp] theorem Part.compStart_frame (s : Part) :
    s.compStart.ports = s.ports ∧ s.compStart.fast = s.fast ∧ s.compStart.store = s.store ∧
      s.compStart.runners = s.runners ∧ s.compStart.air = s.air ∧ s.compStart.loops = s.loops ∧
      s.compStart.live = s.live ∧ s.compStart.staged = s.staged ∧ s.compStart.pins = s.pins ∧
      s.compStart.started = s.started ∧
      s.compStart.clocks = s.clocks ∧ s.compStart.orders = s.orders := by
  refine ⟨?_, ?_, ?_, ?_, ?_, ?_, ?_, ?_, ?_, ?_, ?_, ?_⟩ <;>
    (unfold Part.compStart; (try dsimp only); (repeat' split) <;> simp)

@[simp] theorem Part.startTest_frame (s : Part) :
    s.startTest.ports = s.ports ∧ s.startTest.fast = s.fast ∧ s.startTest.store = s.store ∧
      s.startTest.runners = s.runners ∧ s.startTest.air = s.air ∧ s.startTest.loops = s.loops ∧
      s.startTest.live = s.live ∧ s.startTest.staged = s.staged ∧ s.startTest.pins = s.pins ∧
      s.startTest.started = s.started ∧
      s.startTest.clocks = s.clocks ∧ s.startTest.orders = s.orders := by
  refine ⟨?_, ?_, ?_, ?_, ?_, ?_, ?_, ?_, ?_, ?_, ?_, ?_⟩ <;>
    (unfold Part.startTest; (try dsimp only); (repeat' split) <;> simp)

@[simp] theorem Part.compStop_frame (s : Part) :
    s.compStop.ports = s.ports ∧ s.compStop.fast = s.fast ∧ s.compStop.store = s.store ∧
      s.compStop.runners = s.runners ∧ s.compStop.air = s.air ∧ s.compStop.loops = s.loops ∧
      s.compStop.live = s.live ∧ s.compStop.staged = s.staged ∧ s.compStop.pins = s.pins ∧
      s.compStop.started = s.started ∧
      s.compStop.clocks = s.clocks ∧ s.compStop.orders = s.orders := by
  refine ⟨?_, ?_, ?_, ?_, ?_, ?_, ?_, ?_, ?_, ?_, ?_, ?_⟩ <;>
    (unfold Part.compStop; (try dsimp only); (repeat' split) <;> simp)

@[simp] theorem Part.ordinaryStopTest_frame (s : Part) :
    s.ordinaryStopTest.ports = s.ports ∧ s.ordinaryStopTest.fast = s.fast ∧ s.ordinaryStopTest.store = s.store ∧
      s.ordinaryStopTest.runners = s.runners ∧ s.ordinaryStopTest.air = s.air ∧
      s.ordinaryStopTest.loops = s.loops ∧ s.ordinaryStopTest.live = s.live ∧
      s.ordinaryStopTest.staged = s.staged ∧ s.ordinaryStopTest.pins = s.pins ∧
      s.ordinaryStopTest.started = s.started ∧
      s.ordinaryStopTest.clocks = s.clocks ∧ s.ordinaryStopTest.orders = s.orders := by
  refine ⟨?_, ?_, ?_, ?_, ?_, ?_, ?_, ?_, ?_, ?_, ?_, ?_⟩ <;>
    (unfold Part.ordinaryStopTest; (try dsimp only); (repeat' split) <;> simp)

@[simp] theorem Part.grantAirUpTo_frame (n : Nat) (s : Part) :
    (Part.grantAirUpTo n s).ports = s.ports ∧ (Part.grantAirUpTo n s).fast = s.fast ∧ (Part.grantAirUpTo n s).store = s.store ∧
      (Part.grantAirUpTo n s).runners = s.runners ∧ (Part.grantAirUpTo n s).loops = s.loops ∧ (Part.grantAirUpTo n s).live = s.live ∧
      (Part.grantAirUpTo n s).staged = s.staged ∧ (Part.grantAirUpTo n s).pins = s.pins ∧
      (Part.grantAirUpTo n s).started = s.started ∧ (Part.grantAirUpTo n s).clocks = s.clocks ∧
      (Part.grantAirUpTo n s).orders = s.orders := by
  induction n generalizing s with
  | zero => simp [Part.grantAirUpTo]
  | succ n ih => unfold Part.grantAirUpTo; split <;> simp [ih]

@[simp] theorem Part.airGrantTest_frame (s : Part) :
    s.airGrantTest.ports = s.ports ∧ s.airGrantTest.fast = s.fast ∧ s.airGrantTest.store = s.store ∧
      s.airGrantTest.runners = s.runners ∧ s.airGrantTest.loops = s.loops ∧ s.airGrantTest.live = s.live ∧
      s.airGrantTest.staged = s.staged ∧ s.airGrantTest.pins = s.pins ∧ s.airGrantTest.started = s.started ∧
      s.airGrantTest.clocks = s.clocks ∧
      s.airGrantTest.orders = s.orders := by
  refine ⟨?_, ?_, ?_, ?_, ?_, ?_, ?_, ?_, ?_, ?_, ?_⟩ <;>
    (unfold Part.airGrantTest; (try dsimp only); (repeat' split) <;> simp)

@[simp] theorem Part.airSettle_frame (s : Part) :
    s.airSettle.ports = s.ports ∧ s.airSettle.fast = s.fast ∧ s.airSettle.store = s.store ∧
      s.airSettle.runners = s.runners ∧ s.airSettle.loops = s.loops ∧ s.airSettle.live = s.live ∧
      s.airSettle.staged = s.staged ∧ s.airSettle.pins = s.pins ∧ s.airSettle.started = s.started ∧
      s.airSettle.clocks = s.clocks ∧
      s.airSettle.orders = s.orders := by
  refine ⟨?_, ?_, ?_, ?_, ?_, ?_, ?_, ?_, ?_, ?_, ?_⟩ <;>
    (unfold Part.airSettle; (try dsimp only); (repeat' split) <;> simp)

@[simp] theorem Part.airJoin_frame (s : Part) (b : Bay) :
    (s.airJoin b).ports = s.ports ∧ (s.airJoin b).fast = s.fast ∧ (s.airJoin b).store = s.store ∧
      (s.airJoin b).runners = s.runners ∧ (s.airJoin b).loops = s.loops ∧ (s.airJoin b).live = s.live ∧
      (s.airJoin b).staged = s.staged ∧ (s.airJoin b).pins = s.pins ∧ (s.airJoin b).started = s.started ∧
      (s.airJoin b).clocks = s.clocks ∧
      (s.airJoin b).orders = s.orders := by
  refine ⟨?_, ?_, ?_, ?_, ?_, ?_, ?_, ?_, ?_, ?_, ?_⟩ <;>
    (unfold Part.airJoin; (try dsimp only); (repeat' split) <;> simp)

@[simp] theorem Part.airLeave_frame (s : Part) (b : Bay) :
    (s.airLeave b).ports = s.ports ∧ (s.airLeave b).fast = s.fast ∧ (s.airLeave b).store = s.store ∧
      (s.airLeave b).runners = s.runners ∧ (s.airLeave b).loops = s.loops ∧ (s.airLeave b).live = s.live ∧
      (s.airLeave b).staged = s.staged ∧ (s.airLeave b).pins = s.pins ∧ (s.airLeave b).started = s.started ∧
      (s.airLeave b).clocks = s.clocks ∧
      (s.airLeave b).orders = s.orders := by
  refine ⟨?_, ?_, ?_, ?_, ?_, ?_, ?_, ?_, ?_, ?_, ?_⟩ <;>
    (unfold Part.airLeave; (try dsimp only); (repeat' split) <;> simp)

@[simp] theorem Part.expireHold_frame (s : Part) (b : Bay) :
    (s.expireHold b).ports = s.ports ∧ (s.expireHold b).fast = s.fast ∧ (s.expireHold b).store = s.store ∧
      (s.expireHold b).runners = s.runners ∧ (s.expireHold b).loops = s.loops ∧ (s.expireHold b).live = s.live ∧
      (s.expireHold b).staged = s.staged ∧ (s.expireHold b).pins = s.pins ∧
      (s.expireHold b).started = s.started ∧ (s.expireHold b).clocks = s.clocks ∧
      (s.expireHold b).orders = s.orders := by
  refine ⟨?_, ?_, ?_, ?_, ?_, ?_, ?_, ?_, ?_, ?_, ?_⟩ <;>
    (unfold Part.expireHold; (try dsimp only); (repeat' split) <;> simp)

@[simp] theorem Part.capacityChanged_frame (s : Part) (old : Nat) :
    (s.capacityChanged old).ports = s.ports ∧ (s.capacityChanged old).fast = s.fast ∧
      (s.capacityChanged old).store = s.store ∧ (s.capacityChanged old).runners = s.runners ∧
      (s.capacityChanged old).loops = s.loops ∧ (s.capacityChanged old).live = s.live ∧
      (s.capacityChanged old).staged = s.staged ∧ (s.capacityChanged old).pins = s.pins ∧
      (s.capacityChanged old).started = s.started ∧ (s.capacityChanged old).clocks = s.clocks ∧
      (s.capacityChanged old).orders = s.orders := by
  have h : ∀ (l : List Bay) (a : Part),
      let t := l.foldl (fun (s : Part) b => s.deliver (.bay b) 0) a
      t.ports = a.ports ∧ t.fast = a.fast ∧ t.store = a.store ∧ t.runners = a.runners ∧
      t.loops = a.loops ∧ t.live = a.live ∧ t.staged = a.staged ∧ t.pins = a.pins ∧ t.started = a.started ∧
      t.clocks = a.clocks ∧ t.orders = a.orders := by
    intro l a
    refine ⟨?_, ?_, ?_, ?_, ?_, ?_, ?_, ?_, ?_, ?_, ?_⟩ <;> exact foldl_keeps _ _ (fun a c => by simp) _ _
  unfold Part.capacityChanged
  dsimp only at h ⊢
  (repeat' split) <;> simp [h]

@[simp] theorem Part.steamGrantTest_frame (s : Part) :
    s.steamGrantTest.ports = s.ports ∧ s.steamGrantTest.fast = s.fast ∧ s.steamGrantTest.store = s.store ∧
      s.steamGrantTest.runners = s.runners ∧ s.steamGrantTest.table = s.table ∧
      s.steamGrantTest.boiler = s.boiler ∧ s.steamGrantTest.air = s.air ∧ s.steamGrantTest.comp = s.comp ∧
      s.steamGrantTest.loops = s.loops ∧ s.steamGrantTest.trips = s.trips ∧ s.steamGrantTest.notices = s.notices ∧
      s.steamGrantTest.mode = s.mode ∧ s.steamGrantTest.live = s.live ∧ s.steamGrantTest.staged = s.staged ∧
      s.steamGrantTest.counters = s.counters ∧ s.steamGrantTest.pins = s.pins ∧ s.steamGrantTest.started = s.started ∧
      s.steamGrantTest.clocks = s.clocks ∧ s.steamGrantTest.orders = s.orders := by
  refine ⟨?_, ?_, ?_, ?_, ?_, ?_, ?_, ?_, ?_, ?_, ?_, ?_, ?_, ?_, ?_, ?_, ?_, ?_, ?_⟩ <;>
    (unfold Part.steamGrantTest; (try dsimp only); (repeat' split) <;> simp)

@[simp] theorem Part.openFromStall_frame (s : Part) :
    s.openFromStall.ports = s.ports ∧ s.openFromStall.fast = s.fast ∧ s.openFromStall.store = s.store ∧
      s.openFromStall.runners = s.runners ∧ s.openFromStall.table = s.table ∧ s.openFromStall.boiler = s.boiler ∧
      s.openFromStall.air = s.air ∧ s.openFromStall.comp = s.comp ∧ s.openFromStall.loops = s.loops ∧
      s.openFromStall.trips = s.trips ∧ s.openFromStall.notices = s.notices ∧ s.openFromStall.mode = s.mode ∧
      s.openFromStall.live = s.live ∧ s.openFromStall.staged = s.staged ∧ s.openFromStall.counters = s.counters ∧
      s.openFromStall.pins = s.pins ∧ s.openFromStall.started = s.started ∧ s.openFromStall.clocks = s.clocks ∧
      s.openFromStall.orders = s.orders := by
  refine ⟨?_, ?_, ?_, ?_, ?_, ?_, ?_, ?_, ?_, ?_, ?_, ?_, ?_, ?_, ?_, ?_, ?_, ?_, ?_⟩ <;>
    (unfold Part.openFromStall; (try dsimp only); (repeat' split) <;> simp)

@[simp] theorem Part.manifoldFree_frame (s : Part) :
    s.manifoldFree.ports = s.ports ∧ s.manifoldFree.fast = s.fast ∧ s.manifoldFree.store = s.store ∧
      s.manifoldFree.runners = s.runners ∧ s.manifoldFree.air = s.air ∧ s.manifoldFree.comp = s.comp ∧
      s.manifoldFree.loops = s.loops ∧ s.manifoldFree.live = s.live ∧ s.manifoldFree.staged = s.staged ∧
      s.manifoldFree.counters = s.counters ∧ s.manifoldFree.pins = s.pins ∧
      s.manifoldFree.started = s.started ∧ s.manifoldFree.clocks = s.clocks ∧
      s.manifoldFree.orders = s.orders := by
  refine ⟨?_, ?_, ?_, ?_, ?_, ?_, ?_, ?_, ?_, ?_, ?_, ?_, ?_, ?_⟩ <;>
    (unfold Part.manifoldFree; (try dsimp only); (repeat' split) <;> simp)

@[simp] theorem Part.releaseHolder_frame (s : Part) :
    s.releaseHolder.ports = s.ports ∧ s.releaseHolder.fast = s.fast ∧ s.releaseHolder.store = s.store ∧
      s.releaseHolder.runners = s.runners ∧ s.releaseHolder.air = s.air ∧ s.releaseHolder.comp = s.comp ∧
      s.releaseHolder.loops = s.loops ∧ s.releaseHolder.live = s.live ∧ s.releaseHolder.staged = s.staged ∧
      s.releaseHolder.counters = s.counters ∧ s.releaseHolder.pins = s.pins ∧
      s.releaseHolder.started = s.started ∧ s.releaseHolder.clocks = s.clocks ∧
      s.releaseHolder.orders = s.orders := by
  refine ⟨?_, ?_, ?_, ?_, ?_, ?_, ?_, ?_, ?_, ?_, ?_, ?_, ?_, ?_⟩ <;>
    (unfold Part.releaseHolder; (try dsimp only); (repeat' split) <;> simp)

@[simp] theorem Part.stallManifold_frame (s : Part) :
    s.stallManifold.ports = s.ports ∧ s.stallManifold.fast = s.fast ∧ s.stallManifold.store = s.store ∧
      s.stallManifold.runners = s.runners ∧ s.stallManifold.table = s.table ∧ s.stallManifold.boiler = s.boiler ∧
      s.stallManifold.air = s.air ∧ s.stallManifold.comp = s.comp ∧ s.stallManifold.loops = s.loops ∧
      s.stallManifold.trips = s.trips ∧ s.stallManifold.notices = s.notices ∧ s.stallManifold.mode = s.mode ∧
      s.stallManifold.live = s.live ∧ s.stallManifold.staged = s.staged ∧ s.stallManifold.counters = s.counters ∧
      s.stallManifold.pins = s.pins ∧ s.stallManifold.started = s.started ∧ s.stallManifold.clocks = s.clocks ∧
      s.stallManifold.orders = s.orders := by
  refine ⟨?_, ?_, ?_, ?_, ?_, ?_, ?_, ?_, ?_, ?_, ?_, ?_, ?_, ?_, ?_, ?_, ?_, ?_, ?_⟩ <;>
    (unfold Part.stallManifold; (try dsimp only); (repeat' split) <;> simp)

@[simp] theorem Part.steamJoin_frame (s : Part) (b : Bay) :
    (s.steamJoin b).ports = s.ports ∧ (s.steamJoin b).fast = s.fast ∧ (s.steamJoin b).store = s.store ∧
      (s.steamJoin b).runners = s.runners ∧ (s.steamJoin b).air = s.air ∧ (s.steamJoin b).comp = s.comp ∧
      (s.steamJoin b).loops = s.loops ∧ (s.steamJoin b).live = s.live ∧ (s.steamJoin b).staged = s.staged ∧
      (s.steamJoin b).pins = s.pins ∧ (s.steamJoin b).started = s.started ∧ (s.steamJoin b).clocks = s.clocks ∧
      (s.steamJoin b).orders = s.orders := by
  refine ⟨?_, ?_, ?_, ?_, ?_, ?_, ?_, ?_, ?_, ?_, ?_, ?_, ?_⟩ <;>
    (unfold Part.steamJoin; (try dsimp only); (repeat' split) <;> simp)

@[simp] theorem Part.steamLeave_frame (s : Part) (b : Bay) :
    (s.steamLeave b).ports = s.ports ∧ (s.steamLeave b).fast = s.fast ∧ (s.steamLeave b).store = s.store ∧
      (s.steamLeave b).runners = s.runners ∧ (s.steamLeave b).air = s.air ∧ (s.steamLeave b).comp = s.comp ∧
      (s.steamLeave b).loops = s.loops ∧ (s.steamLeave b).live = s.live ∧ (s.steamLeave b).staged = s.staged ∧
      (s.steamLeave b).counters = s.counters ∧ (s.steamLeave b).pins = s.pins ∧ (s.steamLeave b).started = s.started ∧
      (s.steamLeave b).clocks = s.clocks ∧ (s.steamLeave b).orders = s.orders := by
  refine ⟨?_, ?_, ?_, ?_, ?_, ?_, ?_, ?_, ?_, ?_, ?_, ?_, ?_, ?_⟩ <;>
    (unfold Part.steamLeave; (try dsimp only); (repeat' split) <;> simp)

@[simp] theorem Part.steamClosureOpen_frame (s : Part) (b : Bay) :
    (s.steamClosureOpen b).ports = s.ports ∧ (s.steamClosureOpen b).fast = s.fast ∧
      (s.steamClosureOpen b).store = s.store ∧ (s.steamClosureOpen b).runners = s.runners ∧
      (s.steamClosureOpen b).air = s.air ∧ (s.steamClosureOpen b).comp = s.comp ∧
      (s.steamClosureOpen b).loops = s.loops ∧ (s.steamClosureOpen b).live = s.live ∧
      (s.steamClosureOpen b).staged = s.staged ∧ (s.steamClosureOpen b).counters = s.counters ∧
      (s.steamClosureOpen b).pins = s.pins ∧ (s.steamClosureOpen b).started = s.started ∧
      (s.steamClosureOpen b).clocks = s.clocks ∧
      (s.steamClosureOpen b).orders = s.orders := by
  refine ⟨?_, ?_, ?_, ?_, ?_, ?_, ?_, ?_, ?_, ?_, ?_, ?_, ?_, ?_⟩ <;>
    (unfold Part.steamClosureOpen; (try dsimp only); (repeat' split) <;> simp)

@[simp] theorem Part.boilerFill_frame (s : Part) :
    s.boilerFill.ports = s.ports ∧ s.boilerFill.fast = s.fast ∧ s.boilerFill.store = s.store ∧
      s.boilerFill.runners = s.runners ∧ s.boilerFill.air = s.air ∧ s.boilerFill.comp = s.comp ∧
      s.boilerFill.loops = s.loops ∧ s.boilerFill.live = s.live ∧ s.boilerFill.staged = s.staged ∧
      s.boilerFill.pins = s.pins ∧ s.boilerFill.started = s.started ∧ s.boilerFill.clocks = s.clocks ∧
      s.boilerFill.orders = s.orders := by
  refine ⟨?_, ?_, ?_, ?_, ?_, ?_, ?_, ?_, ?_, ?_, ?_, ?_, ?_⟩ <;>
    (unfold Part.boilerFill; (try dsimp only); (repeat' split) <;> simp)

@[simp] theorem Part.boilerCold_frame (s : Part) :
    s.boilerCold.ports = s.ports ∧ s.boilerCold.fast = s.fast ∧ s.boilerCold.store = s.store ∧
      s.boilerCold.runners = s.runners ∧ s.boilerCold.air = s.air ∧ s.boilerCold.comp = s.comp ∧
      s.boilerCold.loops = s.loops ∧ s.boilerCold.live = s.live ∧ s.boilerCold.staged = s.staged ∧
      s.boilerCold.pins = s.pins ∧ s.boilerCold.started = s.started ∧ s.boilerCold.clocks = s.clocks ∧
      s.boilerCold.orders = s.orders := by
  refine ⟨?_, ?_, ?_, ?_, ?_, ?_, ?_, ?_, ?_, ?_, ?_, ?_, ?_⟩ <;>
    (unfold Part.boilerCold; (try dsimp only); (repeat' split) <;> simp)

@[simp] theorem Part.boilerUnlock_frame (s : Part) :
    s.boilerUnlock.ports = s.ports ∧ s.boilerUnlock.fast = s.fast ∧ s.boilerUnlock.store = s.store ∧
      s.boilerUnlock.runners = s.runners ∧ s.boilerUnlock.air = s.air ∧ s.boilerUnlock.comp = s.comp ∧
      s.boilerUnlock.loops = s.loops ∧ s.boilerUnlock.live = s.live ∧ s.boilerUnlock.staged = s.staged ∧
      s.boilerUnlock.pins = s.pins ∧ s.boilerUnlock.started = s.started ∧ s.boilerUnlock.clocks = s.clocks ∧
      s.boilerUnlock.orders = s.orders := by
  refine ⟨?_, ?_, ?_, ?_, ?_, ?_, ?_, ?_, ?_, ?_, ?_, ?_, ?_⟩ <;>
    (unfold Part.boilerUnlock; (try dsimp only); (repeat' split) <;> simp)

@[simp] theorem Part.updateCurrent_frame (s : Part) (b : Bay) (f : Record → Record) :
    (s.updateCurrent b f).ports = s.ports ∧ (s.updateCurrent b f).fast = s.fast ∧
      (s.updateCurrent b f).runners = s.runners ∧ (s.updateCurrent b f).table = s.table ∧
      (s.updateCurrent b f).boiler = s.boiler ∧ (s.updateCurrent b f).steam = s.steam ∧
      (s.updateCurrent b f).air = s.air ∧ (s.updateCurrent b f).comp = s.comp ∧
      (s.updateCurrent b f).loops = s.loops ∧ (s.updateCurrent b f).trips = s.trips ∧
      (s.updateCurrent b f).notices = s.notices ∧ (s.updateCurrent b f).mode = s.mode ∧
      (s.updateCurrent b f).live = s.live ∧ (s.updateCurrent b f).staged = s.staged ∧
      (s.updateCurrent b f).counters = s.counters ∧ (s.updateCurrent b f).pins = s.pins ∧
      (s.updateCurrent b f).started = s.started ∧
      (s.updateCurrent b f).clocks = s.clocks ∧ (s.updateCurrent b f).orders = s.orders := by
  refine ⟨?_, ?_, ?_, ?_, ?_, ?_, ?_, ?_, ?_, ?_, ?_, ?_, ?_, ?_, ?_, ?_, ?_, ?_, ?_⟩ <;>
    (unfold Part.updateCurrent; (try dsimp only); (repeat' split) <;> simp)

@[simp] theorem Part.placeDemand_frame (s : Part) (b : Bay) :
    (s.placeDemand b).ports = s.ports ∧ (s.placeDemand b).fast = s.fast ∧ (s.placeDemand b).store = s.store ∧
      (s.placeDemand b).loops = s.loops ∧ (s.placeDemand b).live = s.live ∧ (s.placeDemand b).staged = s.staged ∧
      (s.placeDemand b).pins = s.pins ∧ (s.placeDemand b).started = s.started ∧ (s.placeDemand b).clocks = s.clocks ∧
      (s.placeDemand b).orders = s.orders := by
  refine ⟨?_, ?_, ?_, ?_, ?_, ?_, ?_, ?_, ?_, ?_⟩ <;>
    (unfold Part.placeDemand; (try dsimp only); (repeat' split) <;> simp)

@[simp] theorem Part.withdrawDemand_frame (s : Part) (b : Bay) :
    (s.withdrawDemand b).ports = s.ports ∧ (s.withdrawDemand b).fast = s.fast ∧
      (s.withdrawDemand b).store = s.store ∧ (s.withdrawDemand b).loops = s.loops ∧
      (s.withdrawDemand b).live = s.live ∧ (s.withdrawDemand b).staged = s.staged ∧
      (s.withdrawDemand b).pins = s.pins ∧ (s.withdrawDemand b).started = s.started ∧
      (s.withdrawDemand b).clocks = s.clocks ∧
      (s.withdrawDemand b).orders = s.orders := by
  refine ⟨?_, ?_, ?_, ?_, ?_, ?_, ?_, ?_, ?_, ?_⟩ <;>
    (unfold Part.withdrawDemand; (try dsimp only); (repeat' split) <;> simp)

@[simp] theorem Part.recheck_frame (s : Part) (b : Bay) :
    (s.recheck b).ports = s.ports ∧ (s.recheck b).fast = s.fast ∧ (s.recheck b).store = s.store ∧
      (s.recheck b).loops = s.loops ∧ (s.recheck b).live = s.live ∧ (s.recheck b).staged = s.staged ∧
      (s.recheck b).pins = s.pins ∧ (s.recheck b).started = s.started ∧ (s.recheck b).clocks = s.clocks ∧
      (s.recheck b).orders = s.orders := by
  refine ⟨?_, ?_, ?_, ?_, ?_, ?_, ?_, ?_, ?_, ?_⟩ <;>
    (unfold Part.recheck; (try dsimp only); (repeat' split) <;> simp)

@[simp] theorem Part.setCauses_frame (s : Part) (b : Bay) (c : Causes) :
    (s.setCauses b c).ports = s.ports ∧ (s.setCauses b c).fast = s.fast ∧ (s.setCauses b c).store = s.store ∧
      (s.setCauses b c).loops = s.loops ∧ (s.setCauses b c).live = s.live ∧ (s.setCauses b c).staged = s.staged ∧
      (s.setCauses b c).pins = s.pins ∧ (s.setCauses b c).started = s.started ∧ (s.setCauses b c).clocks = s.clocks ∧
      (s.setCauses b c).orders = s.orders := by
  refine ⟨?_, ?_, ?_, ?_, ?_, ?_, ?_, ?_, ?_, ?_⟩ <;>
    (unfold Part.setCauses; (try dsimp only); (repeat' split) <;> simp)

@[simp] theorem Part.setPlantCause_frame (s : Part) (b : Bay) (m : Bool) :
    (s.setPlantCause b m).ports = s.ports ∧ (s.setPlantCause b m).fast = s.fast ∧
      (s.setPlantCause b m).store = s.store ∧ (s.setPlantCause b m).loops = s.loops ∧
      (s.setPlantCause b m).live = s.live ∧ (s.setPlantCause b m).staged = s.staged ∧
      (s.setPlantCause b m).pins = s.pins ∧ (s.setPlantCause b m).started = s.started ∧
      (s.setPlantCause b m).clocks = s.clocks ∧
      (s.setPlantCause b m).orders = s.orders := by
  refine ⟨?_, ?_, ?_, ?_, ?_, ?_, ?_, ?_, ?_, ?_⟩ <;>
    (unfold Part.setPlantCause; (try dsimp only); (repeat' split) <;> simp)

@[simp] theorem Part.enterIdle_frame (s : Part) (b : Bay) :
    (s.enterIdle b).ports = s.ports ∧ (s.enterIdle b).fast = s.fast ∧ (s.enterIdle b).store = s.store ∧
      (s.enterIdle b).table = s.table ∧ (s.enterIdle b).boiler = s.boiler ∧ (s.enterIdle b).steam = s.steam ∧
      (s.enterIdle b).air = s.air ∧ (s.enterIdle b).comp = s.comp ∧ (s.enterIdle b).loops = s.loops ∧
      (s.enterIdle b).trips = s.trips ∧ (s.enterIdle b).notices = s.notices ∧ (s.enterIdle b).mode = s.mode ∧
      (s.enterIdle b).live = s.live ∧ (s.enterIdle b).staged = s.staged ∧ (s.enterIdle b).counters = s.counters ∧
      (s.enterIdle b).pins = s.pins ∧ (s.enterIdle b).started = s.started ∧ (s.enterIdle b).clocks = s.clocks ∧
      (s.enterIdle b).orders = s.orders := by
  refine ⟨?_, ?_, ?_, ?_, ?_, ?_, ?_, ?_, ?_, ?_, ?_, ?_, ?_, ?_, ?_, ?_, ?_, ?_, ?_⟩ <;>
    (unfold Part.enterIdle; (try dsimp only); (repeat' split) <;> simp)

@[simp] theorem Part.takeNext_frame (s : Part) (b : Bay) :
    (s.takeNext b).ports = s.ports ∧ (s.takeNext b).fast = s.fast ∧ (s.takeNext b).loops = s.loops ∧
      (s.takeNext b).live = s.live ∧ (s.takeNext b).staged = s.staged ∧ (s.takeNext b).pins = s.pins ∧
      (s.takeNext b).started = s.started ∧
      (s.takeNext b).clocks = s.clocks ∧ (s.takeNext b).orders = s.orders := by
  refine ⟨?_, ?_, ?_, ?_, ?_, ?_, ?_, ?_, ?_⟩ <;>
    (unfold Part.takeNext; (try dsimp only); (repeat' split) <;> simp)

@[simp] theorem Part.endRecord_frame (s : Part) (b : Bay) (o : RecordEnd) :
    (s.endRecord b o).ports = s.ports ∧ (s.endRecord b o).fast = s.fast ∧ (s.endRecord b o).loops = s.loops ∧
      (s.endRecord b o).live = s.live ∧ (s.endRecord b o).staged = s.staged ∧ (s.endRecord b o).pins = s.pins ∧
      (s.endRecord b o).started = s.started ∧
      (s.endRecord b o).clocks = s.clocks ∧ (s.endRecord b o).orders = s.orders := by
  refine ⟨?_, ?_, ?_, ?_, ?_, ?_, ?_, ?_, ?_⟩ <;>
    (unfold Part.endRecord; (try dsimp only); (repeat' split) <;> simp)

@[simp] theorem Part.dropProgramme_frame (s : Part) (b : Bay) :
    (s.dropProgramme b).ports = s.ports ∧ (s.dropProgramme b).fast = s.fast ∧
      (s.dropProgramme b).runners = s.runners ∧ (s.dropProgramme b).table = s.table ∧
      (s.dropProgramme b).boiler = s.boiler ∧ (s.dropProgramme b).steam = s.steam ∧
      (s.dropProgramme b).air = s.air ∧ (s.dropProgramme b).comp = s.comp ∧ (s.dropProgramme b).loops = s.loops ∧
      (s.dropProgramme b).trips = s.trips ∧ (s.dropProgramme b).notices = s.notices ∧
      (s.dropProgramme b).mode = s.mode ∧ (s.dropProgramme b).live = s.live ∧
      (s.dropProgramme b).staged = s.staged ∧ (s.dropProgramme b).pins = s.pins ∧
      (s.dropProgramme b).started = s.started ∧
      (s.dropProgramme b).clocks = s.clocks ∧ (s.dropProgramme b).orders = s.orders := by
  refine ⟨?_, ?_, ?_, ?_, ?_, ?_, ?_, ?_, ?_, ?_, ?_, ?_, ?_, ?_, ?_, ?_, ?_, ?_⟩ <;>
    (unfold Part.dropProgramme; (try dsimp only); (repeat' split) <;> simp)

@[simp] theorem Part.openClosure_frame (s : Part) (b : Bay) :
    (s.openClosure b).ports = s.ports ∧ (s.openClosure b).fast = s.fast ∧ (s.openClosure b).store = s.store ∧
      (s.openClosure b).loops = s.loops ∧ (s.openClosure b).live = s.live ∧ (s.openClosure b).staged = s.staged ∧
      (s.openClosure b).pins = s.pins ∧ (s.openClosure b).started = s.started ∧ (s.openClosure b).clocks = s.clocks ∧
      (s.openClosure b).orders = s.orders := by
  refine ⟨?_, ?_, ?_, ?_, ?_, ?_, ?_, ?_, ?_, ?_⟩ <;>
    (unfold Part.openClosure; (try dsimp only); (repeat' split) <;> simp)

@[simp] theorem Part.shutClosure_frame (s : Part) (b : Bay) :
    (s.shutClosure b).ports = s.ports ∧ (s.shutClosure b).fast = s.fast ∧ (s.shutClosure b).store = s.store ∧
      (s.shutClosure b).loops = s.loops ∧ (s.shutClosure b).live = s.live ∧ (s.shutClosure b).staged = s.staged ∧
      (s.shutClosure b).pins = s.pins ∧ (s.shutClosure b).started = s.started ∧ (s.shutClosure b).clocks = s.clocks ∧
      (s.shutClosure b).orders = s.orders := by
  refine ⟨?_, ?_, ?_, ?_, ?_, ?_, ?_, ?_, ?_, ?_⟩ <;>
    (unfold Part.shutClosure; (try dsimp only); (repeat' split) <;> simp)

@[simp] theorem Part.dropBayHeat_frame (s : Part) (b : Bay) :
    (s.dropBayHeat b).ports = s.ports ∧ (s.dropBayHeat b).fast = s.fast ∧ (s.dropBayHeat b).store = s.store ∧
      (s.dropBayHeat b).runners = s.runners ∧ (s.dropBayHeat b).comp = s.comp ∧
      (s.dropBayHeat b).loops = s.loops ∧ (s.dropBayHeat b).live = s.live ∧ (s.dropBayHeat b).staged = s.staged ∧
      (s.dropBayHeat b).pins = s.pins ∧ (s.dropBayHeat b).started = s.started ∧ (s.dropBayHeat b).clocks = s.clocks ∧
      (s.dropBayHeat b).orders = s.orders := by
  refine ⟨?_, ?_, ?_, ?_, ?_, ?_, ?_, ?_, ?_, ?_, ?_, ?_⟩ <;>
    (unfold Part.dropBayHeat; (try dsimp only); (repeat' split) <;> simp)

@[simp] theorem Part.linkLoss_frame (s : Part) (b : Bay) :
    (s.linkLoss b).ports = s.ports ∧ (s.linkLoss b).fast = s.fast ∧ (s.linkLoss b).loops = s.loops ∧
      (s.linkLoss b).live = s.live ∧ (s.linkLoss b).staged = s.staged ∧ (s.linkLoss b).pins = s.pins ∧
      (s.linkLoss b).started = s.started ∧
      (s.linkLoss b).clocks = s.clocks ∧ (s.linkLoss b).orders = s.orders := by
  refine ⟨?_, ?_, ?_, ?_, ?_, ?_, ?_, ?_, ?_⟩ <;>
    (unfold Part.linkLoss; (try dsimp only); (repeat' split) <;> simp)

@[simp] theorem Part.judged_frame (s : Part) (b : Bay) (v : Bool) :
    (s.judged b v).ports = s.ports ∧ (s.judged b v).fast = s.fast ∧ (s.judged b v).store = s.store ∧
      (s.judged b v).table = s.table ∧ (s.judged b v).boiler = s.boiler ∧ (s.judged b v).steam = s.steam ∧
      (s.judged b v).air = s.air ∧ (s.judged b v).comp = s.comp ∧ (s.judged b v).loops = s.loops ∧
      (s.judged b v).trips = s.trips ∧ (s.judged b v).mode = s.mode ∧ (s.judged b v).live = s.live ∧
      (s.judged b v).staged = s.staged ∧ (s.judged b v).pins = s.pins ∧ (s.judged b v).started = s.started ∧
      (s.judged b v).clocks = s.clocks ∧
      (s.judged b v).orders = s.orders := by
  refine ⟨?_, ?_, ?_, ?_, ?_, ?_, ?_, ?_, ?_, ?_, ?_, ?_, ?_, ?_, ?_, ?_, ?_⟩ <;>
    (unfold Part.judged; (try dsimp only); (repeat' split) <;> simp)

@[simp] theorem Part.changeSubStep_frame (s : Part) (b : Bay) (f : Record → Record) :
    (s.changeSubStep b f).ports = s.ports ∧ (s.changeSubStep b f).fast = s.fast ∧
      (s.changeSubStep b f).loops = s.loops ∧ (s.changeSubStep b f).live = s.live ∧
      (s.changeSubStep b f).staged = s.staged ∧ (s.changeSubStep b f).pins = s.pins ∧
      (s.changeSubStep b f).started = s.started ∧
      (s.changeSubStep b f).clocks = s.clocks ∧ (s.changeSubStep b f).orders = s.orders := by
  refine ⟨?_, ?_, ?_, ?_, ?_, ?_, ?_, ?_, ?_⟩ <;>
    (unfold Part.changeSubStep; (try dsimp only); (repeat' split) <;> simp)

@[simp] theorem Part.progressTest_frame (s : Part) (b : Bay) :
    (s.progressTest b).ports = s.ports ∧ (s.progressTest b).fast = s.fast ∧ (s.progressTest b).loops = s.loops ∧
      (s.progressTest b).live = s.live ∧ (s.progressTest b).staged = s.staged ∧
      (s.progressTest b).pins = s.pins ∧ (s.progressTest b).started = s.started ∧
      (s.progressTest b).clocks = s.clocks ∧ (s.progressTest b).orders = s.orders := by
  refine ⟨?_, ?_, ?_, ?_, ?_, ?_, ?_, ?_, ?_⟩ <;>
    (unfold Part.progressTest; (try dsimp only); (repeat' split) <;> simp)

@[simp] theorem Part.limitTest_frame (s : Part) (b : Bay) (t : Byte) :
    (s.limitTest b t).ports = s.ports ∧ (s.limitTest b t).fast = s.fast ∧ (s.limitTest b t).loops = s.loops ∧
      (s.limitTest b t).live = s.live ∧ (s.limitTest b t).staged = s.staged ∧ (s.limitTest b t).pins = s.pins ∧
      (s.limitTest b t).started = s.started ∧
      (s.limitTest b t).clocks = s.clocks ∧ (s.limitTest b t).orders = s.orders := by
  refine ⟨?_, ?_, ?_, ?_, ?_, ?_, ?_, ?_, ?_⟩ <;>
    (unfold Part.limitTest; (try dsimp only); (repeat' split) <;> simp)

@[simp] theorem Part.runnerTick_frame (s : Part) (b : Bay) :
    (s.runnerTick b).ports = s.ports ∧ (s.runnerTick b).fast = s.fast ∧ (s.runnerTick b).loops = s.loops ∧
      (s.runnerTick b).live = s.live ∧ (s.runnerTick b).staged = s.staged ∧ (s.runnerTick b).pins = s.pins ∧
      (s.runnerTick b).started = s.started ∧
      (s.runnerTick b).clocks = s.clocks ∧ (s.runnerTick b).orders = s.orders := by
  refine ⟨?_, ?_, ?_, ?_, ?_, ?_, ?_, ?_, ?_⟩ <;>
    (unfold Part.runnerTick; (try dsimp only); (repeat' split) <;> simp)

@[simp] theorem Part.creditTest_frame (s : Part) (b : Bay) :
    (s.creditTest b).ports = s.ports ∧ (s.creditTest b).fast = s.fast ∧ (s.creditTest b).loops = s.loops ∧
      (s.creditTest b).live = s.live ∧ (s.creditTest b).staged = s.staged ∧ (s.creditTest b).pins = s.pins ∧
      (s.creditTest b).started = s.started ∧
      (s.creditTest b).clocks = s.clocks ∧ (s.creditTest b).orders = s.orders := by
  refine ⟨?_, ?_, ?_, ?_, ?_, ?_, ?_, ?_, ?_⟩ <;>
    (unfold Part.creditTest; (try dsimp only); (repeat' split) <;> simp)

@[simp] theorem Part.credit_frame (s : Part) (b : Bay) :
    (s.credit b).ports = s.ports ∧ (s.credit b).fast = s.fast ∧ (s.credit b).loops = s.loops ∧
      (s.credit b).live = s.live ∧ (s.credit b).staged = s.staged ∧ (s.credit b).pins = s.pins ∧
      (s.credit b).started = s.started ∧
      (s.credit b).clocks = s.clocks ∧ (s.credit b).orders = s.orders := by
  refine ⟨?_, ?_, ?_, ?_, ?_, ?_, ?_, ?_, ?_⟩ <;>
    (unfold Part.credit; (try dsimp only); (repeat' split) <;> simp)

@[simp] theorem Part.changeMode_frame (s : Part) (m : Mode) :
    (s.changeMode m).ports = s.ports ∧ (s.changeMode m).fast = s.fast ∧ (s.changeMode m).store = s.store ∧
      (s.changeMode m).runners = s.runners ∧ (s.changeMode m).table = s.table ∧
      (s.changeMode m).boiler = s.boiler ∧ (s.changeMode m).steam = s.steam ∧ (s.changeMode m).air = s.air ∧
      (s.changeMode m).comp = s.comp ∧ (s.changeMode m).loops = s.loops ∧ (s.changeMode m).trips = s.trips ∧
      (s.changeMode m).live = s.live ∧ (s.changeMode m).staged = s.staged ∧
      (s.changeMode m).counters = s.counters ∧ (s.changeMode m).pins = s.pins ∧ (s.changeMode m).started = s.started ∧
      (s.changeMode m).clocks = s.clocks ∧ (s.changeMode m).orders = s.orders := by
  refine ⟨?_, ?_, ?_, ?_, ?_, ?_, ?_, ?_, ?_, ?_, ?_, ?_, ?_, ?_, ?_, ?_, ?_, ?_⟩ <;>
    (unfold Part.changeMode; (try dsimp only); (repeat' split) <;> simp)

@[simp] theorem Part.goOnline_frame (s : Part) :
    s.goOnline.ports = s.ports ∧ s.goOnline.fast = s.fast ∧ s.goOnline.store = s.store ∧
      s.goOnline.runners = s.runners ∧ s.goOnline.loops = s.loops ∧ s.goOnline.live = s.live ∧
      s.goOnline.staged = s.staged ∧ s.goOnline.pins = s.pins ∧ s.goOnline.started = s.started ∧
      s.goOnline.clocks = s.clocks ∧
      s.goOnline.orders = s.orders := by
  refine ⟨?_, ?_, ?_, ?_, ?_, ?_, ?_, ?_, ?_, ?_, ?_⟩ <;>
    (unfold Part.goOnline; (try dsimp only); (repeat' split) <;> simp)

@[simp] theorem Part.enterReady_frame (s : Part) :
    s.enterReady.ports = s.ports ∧ s.enterReady.fast = s.fast ∧ s.enterReady.store = s.store ∧
      s.enterReady.runners = s.runners ∧ s.enterReady.loops = s.loops ∧ s.enterReady.live = s.live ∧
      s.enterReady.staged = s.staged ∧ s.enterReady.pins = s.pins ∧ s.enterReady.started = s.started ∧
      s.enterReady.clocks = s.clocks ∧
      s.enterReady.orders = s.orders := by
  refine ⟨?_, ?_, ?_, ?_, ?_, ?_, ?_, ?_, ?_, ?_, ?_⟩ <;>
    (unfold Part.enterReady; (try dsimp only); (repeat' split) <;> simp)

@[simp] theorem Part.handPlant_frame (s : Part) (m : Bool) :
    (s.handPlant m).ports = s.ports ∧ (s.handPlant m).fast = s.fast ∧ (s.handPlant m).store = s.store ∧
      (s.handPlant m).loops = s.loops ∧ (s.handPlant m).live = s.live ∧ (s.handPlant m).staged = s.staged ∧
      (s.handPlant m).pins = s.pins ∧ (s.handPlant m).started = s.started ∧ (s.handPlant m).clocks = s.clocks := by
  rw [Part.handPlant_eq]
  refine ⟨?_, ?_, ?_, ?_, ?_, ?_, ?_, ?_, ?_⟩ <;>
    exact (foldl_keeps _ _ (fun a c => by simp) _ _).trans (by simp)

@[simp] theorem Part.leaveAutomatic_frame (s : Part) (m : Mode) :
    (s.leaveAutomatic m).ports = s.ports ∧ (s.leaveAutomatic m).fast = s.fast ∧
      (s.leaveAutomatic m).store = s.store ∧ (s.leaveAutomatic m).loops = s.loops ∧
      (s.leaveAutomatic m).live = s.live ∧ (s.leaveAutomatic m).staged = s.staged ∧
      (s.leaveAutomatic m).pins = s.pins ∧ (s.leaveAutomatic m).started = s.started ∧
      (s.leaveAutomatic m).clocks = s.clocks := by
  refine ⟨?_, ?_, ?_, ?_, ?_, ?_, ?_, ?_, ?_⟩ <;>
    (unfold Part.leaveAutomatic; (try dsimp only); (repeat' split) <;> simp)

@[simp] theorem Part.releaseManualHolder_frame (s : Part) :
    s.releaseManualHolder.ports = s.ports ∧ s.releaseManualHolder.fast = s.fast ∧
      s.releaseManualHolder.store = s.store ∧ s.releaseManualHolder.runners = s.runners ∧
      s.releaseManualHolder.air = s.air ∧ s.releaseManualHolder.comp = s.comp ∧
      s.releaseManualHolder.loops = s.loops ∧ s.releaseManualHolder.live = s.live ∧
      s.releaseManualHolder.staged = s.staged ∧ s.releaseManualHolder.counters = s.counters ∧
      s.releaseManualHolder.pins = s.pins ∧ s.releaseManualHolder.started = s.started ∧
      s.releaseManualHolder.clocks = s.clocks ∧
      s.releaseManualHolder.orders = s.orders := by
  refine ⟨?_, ?_, ?_, ?_, ?_, ?_, ?_, ?_, ?_, ?_, ?_, ?_, ?_, ?_⟩ <;>
    (unfold Part.releaseManualHolder; (try dsimp only); (repeat' split) <;> simp)

@[simp] theorem Part.undoManual_frame (s : Part) :
    s.undoManual.ports = s.ports ∧ s.undoManual.fast = s.fast ∧ s.undoManual.store = s.store ∧
      s.undoManual.runners = s.runners ∧ s.undoManual.loops = s.loops ∧ s.undoManual.live = s.live ∧
      s.undoManual.staged = s.staged ∧ s.undoManual.pins = s.pins ∧ s.undoManual.started = s.started ∧
      s.undoManual.clocks = s.clocks ∧
      s.undoManual.orders = s.orders := by
  refine ⟨?_, ?_, ?_, ?_, ?_, ?_, ?_, ?_, ?_, ?_, ?_⟩ <;>
    (unfold Part.undoManual; (try dsimp only); (repeat' split) <;> simp)

@[simp] theorem Part.applyLive_frame (s : Part) (c : Settings) (x y : Bool) :
    (s.applyLive c x y).ports = s.ports ∧ (s.applyLive c x y).fast = s.fast ∧
      (s.applyLive c x y).store = s.store ∧ (s.applyLive c x y).runners = s.runners ∧
      (s.applyLive c x y).loops = s.loops ∧ (s.applyLive c x y).staged = s.staged ∧
      (s.applyLive c x y).pins = s.pins ∧ (s.applyLive c x y).started = s.started ∧
      (s.applyLive c x y).clocks = s.clocks ∧
      (s.applyLive c x y).orders = s.orders := by
  refine ⟨?_, ?_, ?_, ?_, ?_, ?_, ?_, ?_, ?_, ?_⟩ <;>
    (unfold Part.applyLive; (try dsimp only); (repeat' split) <;> simp)

@[simp] theorem Part.tankChanged_frame (s : Part) (x : Bool) :
    (s.tankChanged x).ports = s.ports ∧ (s.tankChanged x).fast = s.fast ∧ (s.tankChanged x).store = s.store ∧
      (s.tankChanged x).runners = s.runners ∧ (s.tankChanged x).table = s.table ∧
      (s.tankChanged x).steam = s.steam ∧ (s.tankChanged x).air = s.air ∧ (s.tankChanged x).comp = s.comp ∧
      (s.tankChanged x).loops = s.loops ∧ (s.tankChanged x).mode = s.mode ∧ (s.tankChanged x).live = s.live ∧
      (s.tankChanged x).staged = s.staged ∧ (s.tankChanged x).pins = s.pins ∧ (s.tankChanged x).started = s.started ∧
      (s.tankChanged x).clocks = s.clocks ∧ (s.tankChanged x).orders = s.orders := by
  refine ⟨?_, ?_, ?_, ?_, ?_, ?_, ?_, ?_, ?_, ?_, ?_, ?_, ?_, ?_, ?_, ?_⟩ <;>
    (unfold Part.tankChanged; (try dsimp only); (repeat' split) <;> simp)

@[simp] theorem Part.condChanged_frame (s : Part) (x : Bool) :
    (s.condChanged x).ports = s.ports ∧ (s.condChanged x).fast = s.fast ∧ (s.condChanged x).store = s.store ∧
      (s.condChanged x).runners = s.runners ∧ (s.condChanged x).air = s.air ∧ (s.condChanged x).loops = s.loops ∧
      (s.condChanged x).live = s.live ∧ (s.condChanged x).staged = s.staged ∧ (s.condChanged x).pins = s.pins ∧
      (s.condChanged x).started = s.started ∧
      (s.condChanged x).clocks = s.clocks ∧ (s.condChanged x).orders = s.orders := by
  refine ⟨?_, ?_, ?_, ?_, ?_, ?_, ?_, ?_, ?_, ?_, ?_, ?_⟩ <;>
    (unfold Part.condChanged; (try dsimp only); (repeat' split) <;> simp)

@[simp] theorem Part.brownStarts_frame (s : Part) :
    s.brownStarts.ports = s.ports ∧ s.brownStarts.fast = s.fast ∧ s.brownStarts.store = s.store ∧
      s.brownStarts.runners = s.runners ∧ s.brownStarts.air = s.air ∧ s.brownStarts.loops = s.loops ∧
      s.brownStarts.live = s.live ∧ s.brownStarts.staged = s.staged ∧ s.brownStarts.pins = s.pins ∧
      s.brownStarts.started = s.started ∧
      s.brownStarts.clocks = s.clocks ∧ s.brownStarts.orders = s.orders := by
  refine ⟨?_, ?_, ?_, ?_, ?_, ?_, ?_, ?_, ?_, ?_, ?_, ?_⟩ <;>
    (unfold Part.brownStarts; (try dsimp only); (repeat' split) <;> simp)

@[simp] theorem Part.brownEnds_frame (s : Part) :
    s.brownEnds.ports = s.ports ∧ s.brownEnds.fast = s.fast ∧ s.brownEnds.store = s.store ∧
      s.brownEnds.runners = s.runners ∧ s.brownEnds.air = s.air ∧ s.brownEnds.loops = s.loops ∧
      s.brownEnds.live = s.live ∧ s.brownEnds.staged = s.staged ∧ s.brownEnds.pins = s.pins ∧
      s.brownEnds.started = s.started ∧
      s.brownEnds.clocks = s.clocks ∧ s.brownEnds.orders = s.orders := by
  refine ⟨?_, ?_, ?_, ?_, ?_, ?_, ?_, ?_, ?_, ?_, ?_, ?_⟩ <;>
    (unfold Part.brownEnds; (try dsimp only); (repeat' split) <;> simp)

@[simp] theorem Part.brownUpdate_frame (s : Part) (v : Nat) :
    (s.brownUpdate v).ports = s.ports ∧ (s.brownUpdate v).fast = s.fast ∧ (s.brownUpdate v).store = s.store ∧
      (s.brownUpdate v).runners = s.runners ∧ (s.brownUpdate v).air = s.air ∧ (s.brownUpdate v).loops = s.loops ∧
      (s.brownUpdate v).live = s.live ∧ (s.brownUpdate v).staged = s.staged ∧ (s.brownUpdate v).pins = s.pins ∧
      (s.brownUpdate v).started = s.started ∧
      (s.brownUpdate v).clocks = s.clocks ∧ (s.brownUpdate v).orders = s.orders := by
  refine ⟨?_, ?_, ?_, ?_, ?_, ?_, ?_, ?_, ?_, ?_, ?_, ?_⟩ <;>
    (unfold Part.brownUpdate; (try dsimp only); (repeat' split) <;> simp)

@[simp] theorem Part.tripInput_frame (s : Part) (i : TripInput) (x : Bool) :
    (s.tripInput i x).ports = s.ports ∧ (s.tripInput i x).fast = s.fast ∧ (s.tripInput i x).store = s.store ∧
      (s.tripInput i x).runners = s.runners ∧ (s.tripInput i x).air = s.air ∧ (s.tripInput i x).loops = s.loops ∧
      (s.tripInput i x).live = s.live ∧ (s.tripInput i x).staged = s.staged ∧ (s.tripInput i x).pins = s.pins ∧
      (s.tripInput i x).started = s.started ∧
      (s.tripInput i x).clocks = s.clocks ∧ (s.tripInput i x).orders = s.orders := by
  refine ⟨?_, ?_, ?_, ?_, ?_, ?_, ?_, ?_, ?_, ?_, ?_, ?_⟩ <;>
    (unfold Part.tripInput; (try dsimp only); (repeat' split) <;> simp)

@[simp] theorem Part.liftForcing_frame (s : Part) :
    s.liftForcing.ports = s.ports ∧ s.liftForcing.fast = s.fast ∧ s.liftForcing.store = s.store ∧
      s.liftForcing.runners = s.runners ∧ s.liftForcing.air = s.air ∧ s.liftForcing.comp = s.comp ∧
      s.liftForcing.loops = s.loops ∧ s.liftForcing.live = s.live ∧ s.liftForcing.staged = s.staged ∧
      s.liftForcing.pins = s.pins ∧ s.liftForcing.started = s.started ∧ s.liftForcing.clocks = s.clocks ∧
      s.liftForcing.orders = s.orders := by
  refine ⟨?_, ?_, ?_, ?_, ?_, ?_, ?_, ?_, ?_, ?_, ?_, ?_, ?_⟩ <;>
    (unfold Part.liftForcing; (try dsimp only); (repeat' split) <;> simp)

@[simp] theorem Part.abortBay_frame (s : Part) (b : Bay) :
    (s.abortBay b).1.ports = s.ports ∧ (s.abortBay b).1.fast = s.fast ∧ (s.abortBay b).1.loops = s.loops ∧
      (s.abortBay b).1.live = s.live ∧ (s.abortBay b).1.staged = s.staged ∧ (s.abortBay b).1.pins = s.pins ∧
      (s.abortBay b).1.started = s.started ∧ (s.abortBay b).1.clocks = s.clocks ∧ (s.abortBay b).1.orders = s.orders := by
  refine ⟨?_, ?_, ?_, ?_, ?_, ?_, ?_, ?_, ?_⟩ <;>
    (unfold Part.abortBay; (try dsimp only); (repeat' split) <;> simp)

end Sys2Proof.Machine
end

