-- ==== Sys2Proof/Laws/Ops.lean ====
section
/-! SUPPORT. Sys2Proof/Laws/Ops.lean: for each shared operation, one lemma that says everything it can do: the guards that
held and the part it leaves. Proofs cite these in place of unfolding the operation. -/

namespace Sys2Proof.Machine

/-! ## Arithmetic and choices of order -/

theorem clampNat_bounds {lo hi : Nat} (h : lo ≤ hi) (x : Int) : lo ≤ clampNat lo hi x ∧ clampNat lo hi x ≤ hi := by
  unfold clampNat
  split
  · omega
  · split <;> omega

theorem clampNat_of_mem {lo hi : Nat} {x : Int} (h : (lo : Int) ≤ x) (k : x ≤ hi) : clampNat lo hi x = x.toNat := by
  unfold clampNat
  rw [if_neg (by omega), if_neg (by omega)]

theorem clampNat_eq_max_min {lo hi : Nat} (h : lo ≤ hi) (x : Int) :
    clampNat lo hi x = (max (lo : Int) (min hi x)).toNat := by
  unfold clampNat
  split
  · omega
  · split <;> omega

theorem satAdd_le (limit n k : Nat) : satAdd limit n k ≤ limit := Nat.min_le_left _ _

/-- Whatever a free choice names, every bay has its turn once. -/
theorem arrange_steps (choice acc : List Bay) (h : acc.Nodup) :
    (choice.foldl (fun acc b => if b ∈ acc then acc else acc ++ [b]) acc).Nodup
      ∧ ∀ b, b ∈ choice.foldl (fun acc b => if b ∈ acc then acc else acc ++ [b]) acc ↔ b ∈ choice ∨ b ∈ acc := by
  induction choice generalizing acc with
  | nil => simpa using h
  | cons c cs ih =>
    simp only [List.foldl_cons]
    by_cases m : c ∈ acc
    · rw [if_pos m]
      refine ⟨(ih acc h).1, fun b => ?_⟩
      rw [(ih acc h).2 b]
      constructor
      · rintro (x | x)
        · exact .inl (List.mem_cons_of_mem _ x)
        · exact .inr x
      · rintro (x | x)
        · rcases List.mem_cons.mp x with rfl | x
          · exact .inr m
          · exact .inl x
        · exact .inr x
    · rw [if_neg m]
      have n : (acc ++ [c]).Nodup := by
        simp only [List.nodup_append, List.nodup_cons, List.not_mem_nil, not_false_eq_true, List.nodup_nil, and_self,
          List.mem_cons, or_false, true_and]
        exact ⟨h, fun a ha b hb => by rintro rfl; exact m (hb ▸ ha)⟩
      refine ⟨(ih _ n).1, fun b => ?_⟩
      rw [(ih _ n).2 b]
      simp only [List.mem_append, List.mem_cons, List.not_mem_nil, or_false]
      tauto

theorem arrange_nodup (choice : List Bay) : (arrange choice).Nodup := (arrange_steps _ [] List.nodup_nil).1

theorem mem_arrange (choice : List Bay) (b : Bay) : b ∈ arrange choice :=
  ((arrange_steps _ [] List.nodup_nil).2 b).mpr (.inl (List.mem_append_right _ (by cases b <;> decide)))

theorem Request.ofCode_code (r : Request) : Request.ofCode r.code = some r := by cases r <;> decide

theorem Bay.ofByte_number (b : Bay) : Bay.ofByte (byteOf (Bay.number b)) = some b := by cases b <;> decide

/-! ## The manifold -/

theorem Part.steamGrantTest_cases (s : Part) : s.steamGrantTest = s ∨ ∃ b rest,
    s.steam.queue = b :: rest ∧ s.steam.manifold = .free ∧ s.mode = .online ∧ s.boilerLatched = false
      ∧ s.steamGrantTest = s.setSteam { s.steam with
          queue := rest, holder := .auto b, slice := some (s.live.slice * 1000)
          manifold := if s.valveMayOpen b then .open else .stalled } := by
  unfold Part.steamGrantTest
  split
  · exact .inl rfl
  · rename_i b rest q
    split
    · rename_i g
      simp only [Bool.and_eq_true, decide_eq_true_eq, Bool.not_eq_true'] at g
      exact .inr ⟨b, rest, q, g.1.1, g.1.2, g.2, rfl⟩
    · exact .inl rfl

theorem Part.openFromStall_cases (s : Part) : s.openFromStall = s ∨ ∃ b,
    s.steam.manifold = .stalled ∧ s.steam.holder = .auto b ∧ s.valveMayOpen b = true
      ∧ s.openFromStall = s.setSteam { s.steam with manifold := .open } := by
  unfold Part.openFromStall
  split
  · rename_i b m h
    split
    · rename_i g
      exact .inr ⟨b, m, h, g, rfl⟩
    · exact .inl rfl
  · exact .inl rfl

theorem Part.stallManifold_cases (s : Part) : s.stallManifold = s ∨ ∃ b,
    s.steam.manifold = .open ∧ s.steam.holder = .auto b
      ∧ s.stallManifold = s.setSteam ({ s.steam with manifold := .stalled }.startPurge s.live.purgeGap) := by
  unfold Part.stallManifold
  split
  · rename_i b m h
    exact .inr ⟨b, m, h, rfl⟩
  · exact .inl rfl

theorem Part.completionTest_cases (s : Part) : s.completionTest = s ∨
    (s.mode = .manualPending ∧ s.steam.manifold = .free ∧ s.comp.running = false
      ∧ s.completionTest = s.enterManual) := by
  unfold Part.completionTest
  split
  · rename_i g
    simp only [Bool.and_eq_true, decide_eq_true_eq, Bool.not_eq_true'] at g
    exact .inr ⟨g.1.1, g.1.2, g.2, rfl⟩
  · exact .inl rfl

/-! ## The compressor -/

theorem Part.mayStart_iff (s : Part) : s.mayStart = true ↔ s.comp.running = false ∧ s.air.holders ≠ []
    ∧ s.condActive = false ∧ s.brownActive = false ∧ s.mode.automatic = true ∧ s.comp.offTimer = .expired
    ∧ s.admits = true := by
  simp [Part.mayStart, and_assoc]

theorem Part.startTest_cases (s : Part) : s.startTest = s ∨ (s.mayStart = true ∧ s.startTest = s.compStart) := by
  unfold Part.startTest
  split
  · rename_i g
    exact .inr ⟨g, rfl⟩
  · exact .inl rfl

theorem Part.compStop_cases (s : Part) : (s.comp.running = false ∧ s.compStop = s) ∨ (s.comp.running = true
    ∧ s.compStop = ((s.setComp ⟨false, .stopped, .running 180000⟩).allocate).completionTest) := by
  unfold Part.compStop
  split
  · rename_i g
    exact .inr ⟨g, rfl⟩
  · rename_i g
    exact .inl ⟨by simpa using g, rfl⟩

theorem Part.ordinaryStopTest_cases (s : Part) : s.ordinaryStopTest = s ∨ (s.mode.automatic = true
    ∧ s.air.holders = [] ∧ s.comp.onTimer = .expired ∧ s.ordinaryStopTest = s.compStop) := by
  unfold Part.ordinaryStopTest
  split
  · rename_i g
    simp only [Bool.and_eq_true, decide_eq_true_eq, List.isEmpty_iff] at g
    exact .inr ⟨g.1.1, g.1.2, g.2, rfl⟩
  · exact .inl rfl

/-! ## Deliveries and trips -/

theorem Part.deliver_cases (s : Part) (l : Load) (q : Nat) : (s.mode = .manual ∧ s.deliver l q = s) ∨
    (s.mode ≠ .manual ∧ s.deliver l q =
      ((s.setLoad l { s.load l with request := min q (s.load l).full }).allocate).countClipped l) := by
  unfold Part.deliver
  split
  · rename_i g
    exact .inl ⟨g, rfl⟩
  · rename_i g
    exact .inr ⟨g, rfl⟩

/-- R149, as the law of Safety.lean says it. -/
theorem Part.lowwArmedNow_iff (s : Part) : s.lowwArmedNow = true ↔
    (s.boiler.state = .heating ∨ s.boiler.state = .ready ∨ s.boiler.state = .keepwarm)
      ∨ (s.boiler.state = .manual ∧ 0 < (s.load .l0).duty) := by
  unfold Part.lowwArmedNow
  cases s.boiler.state <;> simp

theorem Part.refreshArming_arming (s : Part) : s.refreshArming.ArmingLaw := s.lowwArmedNow_iff

/-- With LOWW armed already, arming anew activates nothing. -/
theorem Part.rearm_of_armed {s : Part} (h : s.trips.armed = true) : s.rearm = s.refreshArming := by
  simp [Part.rearm, h]

theorem Part.rearm_cases (s : Part) : s.rearm = s.refreshArming ∨ (s.trips.armed = false ∧ s.lowwArmedNow = true
    ∧ s.trips.inputs.loww.active = true ∧ s.rearm = s.refreshArming.activateBoiler .loww) := by
  unfold Part.rearm
  dsimp only
  split
  · rename_i g
    simp only [Bool.and_eq_true, Bool.not_eq_true'] at g
    exact .inr ⟨g.1.1, g.1.2, g.2, rfl⟩
  · exact .inl rfl

theorem Part.allocate_cases (s : Part) : (s.boiler.state ≠ .manual ∧ s.allocate = s.divideHeadroom) ∨
    (s.boiler.state = .manual ∧ s.allocate = s.divideHeadroom.rearm) := by
  unfold Part.allocate
  dsimp only
  split
  · rename_i g
    exact .inr ⟨g, rfl⟩
  · rename_i g
    exact .inl ⟨g, rfl⟩

/-- With the LOWW input INACTIVE an arming is only a matter of the flag. -/
theorem Part.rearm_of_inactive {s : Part} (h : s.trips.inputs.loww.active = false) : s.rearm = s.refreshArming := by
  rcases s.rearm_cases with e | ⟨_, _, g, _⟩
  · exact e
  · rw [h] at g
    cases g

/-! ## Entries at a port -/

theorem Part.takeHead_sending {s : Part} {p : Port} (h : (s.port p).tx.isSome = true) : s.takeHead p = s := by
  unfold Part.takeHead
  split
  · rename_i e _
    rw [e] at h
    cases h
  · rfl

/-- An entry that comes to a port whose transmitter is SENDING waits behind the others, or is an overrun. -/
theorem Part.offer_sending {s : Part} {p : Port} (e : Entry) (h : (s.port p).tx.isSome = true) :
    s.offer p e = if 2 ≤ (s.port p).buffer.length then s.countOverrun p
      else s.setPort p { s.port p with buffer := (s.port p).buffer ++ [e] } := by
  rw [Part.offer, if_pos h, Part.enter, Part.takeHead_sending (by simpa using h)]
  rfl

/-- A request that comes to a port whose transmitter is IDLE is taken at once. -/
theorem Part.request_idle {s : Part} {p : Port} (r : Request) (args : List Byte) (h : (s.port p).tx = none) :
    s.request p r args = s.serve p r args := by
  simp [Part.request, Part.offer, h, Part.take, Request.ofCode_code]

theorem Part.offer_frame_idle {s : Part} {p : Port} (code : Byte) (h : (s.port p).tx = none) :
    s.offer p (.frame code) = s.send p ⟨code, .frame, []⟩ := by
  simp [Part.offer, h, Part.take, Part.serveFrame]

/-! ## Power-on reset -/

theorem Part.held_iff (s : Part) :
    s.held = true ↔ s.pins.resetn = false ∨ s.pins.supply = false ∨ s.started = false := by
  cases h : s.pins.resetn <;> cases h' : s.pins.supply <;> cases h'' : s.started <;> simp [Part.held, h, h', h'']

theorem Part.pinLevels_started {s : Part} (h : s.held = false) : s.pinLevels = s.outputs := by simp [Part.pinLevels, h]

theorem Part.pinLevels_held {s : Part} (h : s.held = true) : s.pinLevels = .inReset := if_pos h

@[simp] theorem Part.heldInReset_held (s : Part) (pins : Pins) : (s.heldInReset pins).held = true :=
  (Part.held_iff _).mpr (.inr (.inr rfl))

/-- A rise of RESETN ends the reset where the supply is valid, and is a level of the pin alone where it is not. -/
theorem Part.resetnRises_cases (s : Part) (ratesel : Bool) :
    (s.pins.supply = true ∧ s.resetnRises ratesel =
      .afterReset { s.pins with resetn := true, ratesel := ratesel } s.orders) ∨
    (s.pins.supply = false ∧ s.resetnRises ratesel =
      s.setPins { s.pins with resetn := true, ratesel := ratesel }) := by
  cases h : s.pins.supply
  · exact .inr ⟨rfl, by simp [Part.resetnRises, h]⟩
  · exact .inl ⟨rfl, by simp [Part.resetnRises, h]⟩

@[simp] theorem Part.heldInReset_port (s : Part) (pins : Pins) (p : Port) :
    (s.heldInReset pins).port p = { PortState.reset with inBreak := true } := by
  cases p with
  | sp => rfl
  | bp b => cases b <;> rfl

theorem State.tick_held {s : State} (h : s.part.held = true) : s.tick = s := if_pos h

theorem State.tick_started {s : State} (h : s.part.held = false) : s.tick = ⟨s.part.advance, s.part.advance.due⟩ := by
  simp [State.tick, h]

/-! ## Forced loads (R82, R89) and the codes of section 10.3 -/

theorem handOut_load (share left : Nat) (u : List Claim) : (handOut share left u).map Prod.fst = u.map Claim.load := by
  induction u generalizing left with
  | nil => rfl
  | cons c rest ih => simp [handOut, ih]

theorem mem_shareRounds {k : Nat} {u : List Claim} {h : Nat} {x : Load × Nat} (m : x ∈ (shareRounds k u h).1) :
    x.1 ∈ u.map Claim.load := by
  induction k generalizing u h with
  | zero => simp [shareRounds] at m
  | succ k ih =>
    match u with
    | [] => simp [shareRounds] at m
    | c :: cs =>
      simp only [shareRounds] at m
      split at m
      · rw [← handOut_load]
        exact List.mem_map_of_mem m
      · rename_i f fs e
        rcases List.mem_append.mp m with m | m
        · obtain ⟨y, hy, rfl⟩ := List.mem_map.mp m
          exact List.mem_map_of_mem (List.mem_of_mem_filter (e ▸ hy))
        · obtain ⟨y, hy, e⟩ := List.mem_map.mp (ih m)
          exact e ▸ List.mem_map_of_mem (List.mem_of_mem_filter hy)

theorem mem_divide {u : List Claim} {h : Nat} {x : Load × Nat} (m : x ∈ (divide u h).1) : x.1 ∈ u.map Claim.load := by
  unfold divide at m
  split at m
  · obtain ⟨y, hy, rfl⟩ := List.mem_map.mp m
    exact List.mem_map_of_mem hy
  · exact mem_shareRounds m

/-- A forced load has no claim, so no division grants it anything. -/
theorem LoadTable.grantOf_forced {t : LoadTable} {l : Load} (f : (t.loads.get l).forced = true) (h : Nat) :
    grantOf (divide t.claims h).1 l = 0 := by
  unfold grantOf
  split
  · rename_i x e
    obtain ⟨c, m, same⟩ := List.mem_map.mp (mem_divide (List.mem_of_find?_eq_some e))
    obtain ⟨y, my, rfl⟩ := List.mem_map.mp m
    obtain rfl : y = l := same.trans (by simpa using List.find?_some e)
    simp [f] at my
  · rfl

theorem LoadTable.allocate_entry (t : LoadTable) (h : Nat) (l : Load) :
    (t.allocate h).loads.get l = (t.loads.get l).grantedAt (l ≠ .l0) (grantOf (divide t.claims h).1 l) := by
  cases l with
  | l0 => rfl
  | bay b => cases b <;> rfl

/-- Every allocation leaves a forced load without grant and duty, and forces and frees none. -/
theorem LoadTable.allocate_forced (t : LoadTable) (h : Nat) (l : Load) :
    ((t.allocate h).loads.get l).forced = (t.loads.get l).forced ∧
      ((t.loads.get l).forced = true → ((t.allocate h).loads.get l).grant = 0 ∧ ((t.allocate h).loads.get l).duty = 0) := by
  rw [LoadTable.allocate_entry]
  exact ⟨rfl, fun f => by simp [LoadEntry.grantedAt, LoadTable.grantOf_forced f]⟩

/-- The record part of FAULT_CLEAR's reply in the codes of section 10.3. -/
theorem TripUnit.recordBytes_eq (t : TripUnit) : t.recordBytes = FirstFault.bytes t.first ++ [byteOf t.faultCount] := by
  rcases t with ⟨i, l, a, ss, bs, lo, hi, _ | ⟨c, n, m, tb, v⟩, k, sec⟩
  · rfl
  · rcases c with c | b
    · cases c <;> cases m <;> rfl
    · cases b <;> cases m <;> rfl

/-! ## Heater outputs (R87) -/

theorem HeatOut.on_iff (h : HeatOut) : h.on = true ↔ h.pos < h.onTime ∨ 2000 ≤ h.onTime := by
  simp only [HeatOut.on, Bool.or_eq_true, decide_eq_true_eq]
  exact Iff.rfl

/-- A duty below 1000 in force during the period turns the output off for what is left of it. -/
theorem HeatOut.withDuty_off {h : HeatOut} {duty : Nat} (low : duty < 1000) (late : 2 * duty ≤ h.pos) :
    (h.withDuty duty).on = false := by
  rw [Bool.eq_false_iff, ne_eq, HeatOut.on_iff]
  simp only [HeatOut.withDuty]
  omega

/-! ## Inputs -/

/-- An input that a command reports on reads what it reports, for either kind of input. -/
@[simp] theorem Wire.reporting_active (w : Wire) (level : Bool) : (w.reporting Wire.active level).active = level := by
  cases w <;> cases level <;> rfl

@[simp] theorem Wire.reporting_wet (w : Wire) (level : Bool) : (w.reporting Wire.wet level).wet = level := by
  cases w <;> cases level <;> rfl

/-! ## Running a command -/

theorem State.run_eq (s : State) (f : Part → Part) : s.run f = .next ⟨f s.part, s.pending⟩ := rfl

theorem step_cons (p : Part) (c : Instr) (rest : List Instr) : step ⟨p, c :: rest⟩ = exec c ⟨p, rest⟩ := rfl

theorem step_nil (p : Part) : step ⟨p, []⟩ = .next (State.tick ⟨p, []⟩) := rfl

end Sys2Proof.Machine
end

