-- ==== Sys2Proof/Laws/Arbiters.lean ====
section
/-! SUPPORT. Sys2Proof/Laws/Arbiters.lean: for each operation of the arbiters, the relation of Safety.lean it realises: the
grant tests, the releases, the placing and the withdrawal of a demand, the boiler's entries and a change of C.
Proofs cite these in place of unfolding. -/

namespace Sys2Proof.Machine

/-! ## The manifold -/

theorem Steam.startPurge_eq (a : Steam) (gap : Nat) : a.startPurge gap = { a with purge := a.purgeFrom gap } := by
  unfold Steam.startPurge Steam.purgeFrom
  split <;> rfl

theorem Part.valveMayOpen_iff (s : Part) (b : Bay) : s.valveMayOpen b = true ↔ s.boiler.state = .ready
    ∧ s.mode = .online ∧ s.steam.purge = none ∧ s.boilerLatched = false ∧ (s.runner b).shut = true := by
  simp [Part.valveMayOpen, and_assoc]

theorem Part.steamGrantTest_grants (s : Part) : s.SteamGrants s.steam.queue s.steamGrantTest.steam := by
  unfold Part.SteamGrants Part.steamGrantTest
  dsimp only
  split
  · rename_i e
    exact ⟨fun _ => rfl, fun h => absurd e h.1⟩
  · rename_i b rest e
    by_cases g : s.steam.manifold = .free ∧ s.mode = .online ∧ s.trips.latches.any = false
    · simp [e, g, Part.valveMayOpen_iff, Part.boilerLatched]
    · refine ⟨fun _ => ?_, fun h => absurd h.2 g⟩
      rw [if_neg (by simpa [Part.boilerLatched, and_assoc] using g)]

/-- The manifold sees of a part no more than these. -/
structure Part.SteamAlike (s u : Part) : Prop where
  steam : u.steam = s.steam
  boiler : u.boiler = s.boiler
  mode : u.mode = s.mode
  trips : u.trips = s.trips
  live : u.live = s.live
  shut : ∀ c, (u.runner c).shut = (s.runner c).shut

theorem Part.SteamGrants.of_alike {s u : Part} (k : s.SteamAlike u) {q : List Bay} {a : Steam} (h : u.SteamGrants q a) :
    s.SteamGrants q a := by
  simpa only [Part.SteamGrants, k.steam, k.boiler, k.mode, k.trips, k.live, k.shut] using h

theorem Part.SteamReleased.of_alike {s u : Part} (k : s.SteamAlike u) {q : List Bay} {a : Steam}
    (h : u.SteamReleased q a) : s.SteamReleased q a := by
  unfold Part.SteamReleased at h ⊢
  simp only [k.steam, k.live] at h
  refine ⟨h.1, fun e => Part.SteamGrants.of_alike ?_ (h.2 e)⟩
  exact ⟨rfl, k.boiler, k.mode, k.trips, rfl, k.shut⟩

theorem Part.manifoldFree_grants (s : Part) :
    ({ s with steam := { s.steam with manifold := .free } } : Part).SteamGrants s.steam.queue s.manifoldFree.steam := by
  have h := (s.setSteam { s.steam with manifold := .free }).steamGrantTest_grants
  unfold Part.manifoldFree
  dsimp only
  split
  · rw [(Part.completionTest_frame _).2.2.2.2.1]
    exact h
  · exact h

/-- The holder leaves with the queue that stands. -/
theorem Part.releaseHolder_released (s : Part) : s.SteamReleased s.steam.queue s.releaseHolder.steam := by
  unfold Part.SteamReleased Part.releaseHolder
  simp only [Steam.startPurge_eq]
  refine ⟨fun h => ?_, fun h => ?_⟩
  · rw [if_neg]
    · rfl
    · simpa [Option.isNone_iff_eq_none, Steam.purgeFrom] using h
  · rw [if_pos]
    · exact Part.manifoldFree_grants (s.setSteam ⟨s.steam.queue, .none, .purge, none, _, s.steam.yield⟩)
    · simpa [Option.isNone_iff_eq_none, Steam.purgeFrom] using h

/-! ## The compressor and the air arbiter -/

theorem Part.allocate_automatic {s : Part} (h : s.boiler.state ≠ .manual) : s.allocate = s.divideHeadroom := by
  rcases s.allocate_cases with ⟨_, e⟩ | ⟨m, _⟩
  · exact e
  · exact absurd m h

theorem Part.compStart_eq {s : Part} (h : s.boiler.state ≠ .manual) : s.compStart =
    { s with
      comp := ⟨true, .running 60000, .stopped⟩, table := s.table.allocate (s.headroomWith true)
      counters := { s.counters with plant := { s.counters.plant with starts := s.counters.plant.starts + 1 } } } := by
  unfold Part.compStart
  dsimp only
  rw [Part.allocate_automatic (by simpa using h)]
  rfl

theorem Mode.automatic_iff (m : Mode) : m.automatic = true ↔ m = .starting ∨ m = .online := by
  cases m <;> decide

/-- The start test finds its conditions as R137 lists them. -/
theorem Part.mayStart_iff_waits (s : Part) :
    s.mayStart = true ↔ s.comp.running = false ∧ s.comp.offTimer = .expired ∧ s.startWaits := by
  rw [Part.mayStart_iff, Mode.automatic_iff]
  simp only [Part.startWaits, Part.condActive, Part.brownActive, Part.admits, decide_eq_true_eq, TripUnit.source]
  tauto

/-- The table that follows the compressor from one part to the next. -/
def Part.tableFollows (s t : Part) : Prop :=
  t.table = if t.comp = s.comp then s.table else s.table.allocate (s.headroomWith true)

theorem Part.startTest_tested {s : Part} (h : s.boiler.state ≠ .manual) :
    s.StartTested s.startTest ∧ s.tableFollows s.startTest := by
  have same : ({ s with air := s.startTest.air } : Part) = s := by
    rw [show s.startTest.air = s.air by simp]
  unfold Part.StartTested Part.tableFollows
  dsimp only
  rw [same, ← Part.mayStart_iff_waits, Part.startTest, Part.compStart_eq h]
  by_cases g : s.mayStart = true
  · have off := ((Part.mayStart_iff s).mp g).1
    have : (⟨true, .running 60000, .stopped⟩ : Compressor) ≠ s.comp := fun e => by simp [← e] at off
    simp [g, this]
  · simp [g, Part.CompKept]

/-- The air arbiter after `n` grants from the head of its queue. -/
def Air.granted (a : Air) (airSlice n : Nat) : Air :=
  { a with queue := a.queue.drop n, holders := a.holders ++ (a.queue.take n).map fun c => ⟨c, 0, airSlice⟩ }

/-- How many grants the grant test of R131 makes. -/
def Part.airGrants (s : Part) : Nat :=
  if s.mode.automatic then min (s.live.capacity - s.air.holders.length) s.air.queue.length else 0

/-- Of the start tests after several grants only the last is seen: what R137 asks of the holders is one of them. -/
theorem Part.startTest_again {s : Part} (h : s.boiler.state ≠ .manual) (held : s.air.holders ≠ []) {a : Air}
    (held' : a.holders ≠ []) : (s.startTest.setAir a).startTest = (s.setAir a).startTest := by
  have same : (s.setAir a).mayStart = s.mayStart := by
    rw [Bool.eq_iff_iff, Part.mayStart_iff_waits, Part.mayStart_iff_waits]
    simp [Part.startWaits, held, held']
  by_cases g : s.mayStart = true
  · have g' := same ▸ g
    rw [show s.startTest = s.compStart from if_pos g,
      show (s.setAir a).startTest = (s.setAir a).compStart from if_pos g', Part.startTest, if_neg]
    · rw [Part.compStart_eq h, Part.compStart_eq (by simpa using h)]
      rfl
    · rw [Part.mayStart_iff, Part.compStart_eq h]
      simp
  · rw [show s.startTest = s from if_neg g]

theorem Part.startTest_keeps {s : Part} (h : s.boiler.state ≠ .manual) :
    s.startTest.boiler = s.boiler ∧ s.startTest.mode = s.mode ∧ s.startTest.trips = s.trips
      ∧ s.startTest.steam = s.steam := by
  unfold Part.startTest
  split
  · rw [Part.compStart_eq h]
    exact ⟨rfl, rfl, rfl, rfl⟩
  · exact ⟨rfl, rfl, rfl, rfl⟩

theorem Part.mayGrantAir_iff (s : Part) : s.mayGrantAir = true ↔ s.airGrants ≠ 0 := by
  unfold Part.airGrants Part.mayGrantAir
  cases s.mode.automatic
  · simp
  · cases s.air.queue with
    | nil => simp
    | cons b rest =>
      simp only [List.isEmpty_cons, List.length_cons, if_true, Bool.and_eq_true, decide_eq_true_eq, Bool.not_false,
        and_true]
      omega

/-- Grants one after the other are one run of grants. -/
theorem Air.granted_again (a : Air) (airSlice n : Nat) :
    (a.granted airSlice 1).granted airSlice n = a.granted airSlice (n + 1) := by
  cases q : a.queue with
  | nil => simp [Air.granted, q]
  | cons b rest => simp [Air.granted, q]

theorem Air.granted_min (a : Air) (airSlice n : Nat) :
    a.granted airSlice (min n a.queue.length) = a.granted airSlice n := by
  rcases Nat.le_total n a.queue.length with l | l
  · rw [Nat.min_eq_left l]
  · rw [Nat.min_eq_right l]
    simp [Air.granted, List.drop_eq_nil_of_le l, List.take_of_length_le l]

theorem Part.grantAirUpTo_eq (n : Nat) {s : Part} (h : s.boiler.state ≠ .manual) : Part.grantAirUpTo n s =
    if min n s.airGrants = 0 then s
    else (s.setAir (s.air.granted s.live.airSlice (min n s.airGrants))).startTest := by
  induction n generalizing s with
  | zero => simp [Part.grantAirUpTo]
  | succ n ih =>
    unfold Part.grantAirUpTo
    by_cases g : s.mayGrantAir = true
    · have k := s.mayGrantAir_iff.mp g
      obtain ⟨b, rest, q⟩ : ∃ b rest, s.air.queue = b :: rest := by
        cases q : s.air.queue with
        | nil => simp [Part.airGrants, q] at k
        | cons b rest => exact ⟨b, rest, rfl⟩
      have head : s.air.grantHead s.live.airSlice = s.air.granted s.live.airSlice 1 := by
        simp [Air.grantHead, Air.granted, q]
      have held : (s.air.granted s.live.airSlice 1).holders ≠ [] := by simp [Air.granted, q]
      have h' : (s.setAir (s.air.granted s.live.airSlice 1)).boiler.state ≠ .manual := by simpa using h
      obtain ⟨boiler, mode, -, -⟩ := Part.startTest_keeps h'
      have left : (s.setAir (s.air.granted s.live.airSlice 1)).startTest.airGrants = s.airGrants - 1 := by
        unfold Part.airGrants
        rw [mode]
        simp only [Part.startTest_frame, Part.setAir_live, Part.setAir_mode, Part.setAir_air, Air.granted, q,
          List.length_append, List.length_map, List.length_take, List.length_drop, List.length_cons]
        cases s.mode.automatic
        · rfl
        · simp only [if_true]
          omega
      have some' : min (n + 1) s.airGrants ≠ 0 := by omega
      rw [if_pos g, head, ih (by rw [boiler]; exact h'), left, if_neg some']
      by_cases z : min n (s.airGrants - 1) = 0
      · rw [if_pos z, show min (n + 1) s.airGrants = 1 by omega]
      · rw [if_neg z, show min (n + 1) s.airGrants = min n (s.airGrants - 1) + 1 by omega]
        simp only [Part.startTest_frame, Part.setAir_live, Part.setAir_air]
        rw [Air.granted_again, Part.startTest_again h' held (by simp [Air.granted, q])]
        rfl
    · rw [if_neg g, if_pos]
      have := mt s.mayGrantAir_iff.mpr g
      omega

theorem Part.airGrants_le (s : Part) : s.airGrants ≤ s.air.queue.length := by
  unfold Part.airGrants
  split <;> omega

theorem Part.airGrantTest_eq {s : Part} (h : s.boiler.state ≠ .manual) : s.airGrantTest =
    if s.airGrants = 0 then s else (s.setAir (s.air.granted s.live.airSlice s.airGrants)).startTest := by
  rw [Part.airGrantTest, Part.grantAirUpTo_eq _ h, Nat.min_eq_right s.airGrants_le]

/-- What the air arbiter's grant test leaves, with its start test and the table that follows the compressor. -/
theorem Part.airGrantTest_grants {s : Part} (h : s.boiler.state ≠ .manual) :
    s.AirGrants s.air.queue s.air.holders s.airGrantTest.air
      ∧ (s.airGrantTest.air.holders = s.air.holders → s.airGrantTest = s)
      ∧ (s.airGrantTest.air.holders ≠ s.air.holders → s.StartTested s.airGrantTest)
      ∧ s.tableFollows s.airGrantTest ∧ s.airGrantTest.boiler = s.boiler ∧ s.airGrantTest.mode = s.mode
      ∧ s.airGrantTest.trips = s.trips ∧ s.airGrantTest.steam = s.steam := by
  rw [Part.airGrantTest_eq h]
  have air : s.AirGrants s.air.queue s.air.holders (s.air.granted s.live.airSlice s.airGrants) := by
    unfold Part.AirGrants Part.airGrants
    simp only [Mode.automatic_iff]
    split
    · rw [Air.granted_min]
      rfl
    · rfl
  by_cases z : s.airGrants = 0
  · rw [if_pos z]
    refine ⟨?_, fun _ => rfl, fun e => absurd rfl e, by simp [Part.tableFollows], rfl, rfl, rfl, rfl⟩
    simpa [z, Air.granted] using air
  · rw [if_neg z]
    have h' : (s.setAir (s.air.granted s.live.airSlice s.airGrants)).boiler.state ≠ .manual := by simpa using h
    obtain ⟨tested, table⟩ := Part.startTest_tested h'
    obtain ⟨boiler, mode, trips, steam⟩ := Part.startTest_keeps h'
    refine ⟨by simpa using air, fun e => ?_, fun _ => tested, table, boiler, mode, trips, steam⟩
    have le := s.airGrants_le
    have long := congrArg List.length e
    simp only [Part.startTest_frame, Part.setAir_air, Air.granted, List.length_append, List.length_map,
      List.length_take] at long
    omega

/-! ## Placing a demand -/

/-- A KEEPWARM boiler woken with LOWW armed only changes its state (R101, R149). -/
theorem Part.wake_eq {s : Part} (law : s.ArmingLaw) (h : s.boiler.state = .keepwarm) :
    s.setBoilerState { s.boiler with state := .heating } = s.setBoiler { s.boiler with state := .heating } := by
  have armed : s.trips.armed = true := law.mpr (.inl (.inr (.inr h)))
  unfold Part.setBoilerState
  rw [Part.rearm_of_armed (by simpa using armed)]
  show (s.setBoiler _).setTrips { s.trips with armed := true } = _
  rw [← armed]
  rfl

theorem Part.steamGrantTest_keeps (s : Part) : s.steamGrantTest = s.setSteam s.steamGrantTest.steam := by
  rcases s.steamGrantTest_cases with e | ⟨_, _, _, _, _, _, e⟩
  · rw [e]
    rfl
  · rw [e]
    rfl

/-- What a join to the steam queue leaves (R101, R113, R114). -/
theorem Part.steamJoin_joins {s : Part} {b : Bay} (queued : b ∉ s.steam.queue) (holds : s.steam.holder.bay ≠ some b)
    (law : s.boiler.state = .keepwarm → s.ArmingLaw) :
    ∃ a, s.SteamGrants (s.steam.queue ++ [b]) a ∧ s.steamJoin b = ((s.setSteam a).setBoiler
      (if s.boiler.state = .keepwarm ∧ s.steam.queue = [] then { s.boiler with state := .heating } else s.boiler)) := by
  unfold Part.steamJoin
  rw [if_neg (by simp [queued, holds])]
  dsimp only
  by_cases w : s.boiler.state = .keepwarm ∧ s.steam.queue = []
  · have law' : (s.setSteam { s.steam with queue := s.steam.queue ++ [b] }).ArmingLaw := law w.1
    rw [if_pos (by simp [w.1, w.2]), if_pos w, Part.wake_eq law' (by simpa using w.1), Part.steamGrantTest_keeps]
    refine ⟨_, ?_, rfl⟩
    have := (((s.setSteam { s.steam with queue := s.steam.queue ++ [b] }).setBoiler
      { s.boiler with state := .heating }).steamGrantTest_grants)
    simpa [Part.SteamGrants, w.1, Part.runner] using this
  · rw [if_neg (by simp only [Bool.and_eq_true, List.isEmpty_iff, decide_eq_true_eq]; tauto), if_neg w,
      Part.steamGrantTest_keeps]
    exact ⟨_, (s.setSteam { s.steam with queue := s.steam.queue ++ [b] }).steamGrantTest_grants, rfl⟩

/-- A demand of a bay without a claim is placed as R65, R113 and R130 have it. -/
theorem Part.placeDemand_placed {s : Part} {b : Bay} (queued : b ∉ s.steam.queue) (holds : s.steam.holder.bay ≠ some b)
    (h : s.boiler.state ≠ .manual) : s.DemandPlaced (s.placeDemand b) b := by
  unfold Part.placeDemand
  generalize demandFor (s.current b) = d
  let u := s.setRunner b { s.runner b with demand := d }
  have exported : ∀ t : Part, t.runners = u.runners → (t.runner b).demand = d := fun t e => by
    simp [Part.runner, e, u, Part.setRunner]
  cases d with
  | none =>
    unfold Part.DemandPlaced
    rw [exported _ rfl]
    exact ⟨rfl, rfl, ⟨rfl, rfl⟩, rfl, rfl⟩
  | steam =>
    have same : (u.steamJoin b).runners = u.runners := by simp
    unfold Part.DemandPlaced
    rw [exported _ same]
    intro law
    obtain ⟨a, grants, e⟩ := u.steamJoin_joins queued holds law
    have from' : ({ s with runners := (u.steamJoin b).runners } : Part) = u := by rw [same]; rfl
    show ({ s with runners := (u.steamJoin b).runners } : Part).SteamGrants _ (u.steamJoin b).steam
      ∧ (u.steamJoin b).boiler = _ ∧ (u.steamJoin b).air = _ ∧ s.CompKept (u.steamJoin b)
      ∧ (u.steamJoin b).table = _
    rw [from', e]
    exact ⟨grants, rfl, rfl, ⟨rfl, rfl⟩, rfl⟩
  | air t =>
    unfold Part.DemandPlaced
    rw [exported (u.airJoin b) (by simp)]
    obtain ⟨air, kept, tested, table, boiler, -, -, steam⟩ :=
      Part.airGrantTest_grants (s := u.setAir { u.air with queue := u.air.queue ++ [b] }) h
    refine ⟨air, fun e => ?_, tested, table, steam, boiler⟩
    show s.CompKept (Part.airGrantTest _)
    rw [kept e]
    exact ⟨rfl, rfl⟩

/-! ## Withdrawing a demand -/

theorem Part.completionTest_automatic {s : Part} (auto : s.mode.automatic = true) : s.completionTest = s := by
  rcases s.completionTest_cases with e | ⟨m, _⟩
  · exact e
  · rw [m] at auto
    cases auto

/-- In automatic operation a release moves the steam arbiter and nothing else. -/
theorem Part.releaseHolder_keeps {s : Part} (auto : s.mode.automatic = true) :
    s.releaseHolder = s.setSteam s.releaseHolder.steam := by
  unfold Part.releaseHolder Part.manifoldFree
  dsimp only
  split
  · split
    · rw [Part.completionTest_automatic (by simpa using auto), Part.steamGrantTest_keeps]
      rfl
    · rw [Part.steamGrantTest_keeps]
      rfl
  · rfl

/-- A load that requests nothing has no claim, so no division grants it anything. -/
theorem LoadTable.grantOf_idle {t : LoadTable} {l : Load} (f : (t.loads.get l).request = 0) (h : Nat) :
    grantOf (divide t.claims h).1 l = 0 := by
  unfold grantOf
  split
  · rename_i x e
    obtain ⟨c, m, same⟩ := List.mem_map.mp (mem_divide (List.mem_of_find?_eq_some e))
    obtain ⟨y, my, rfl⟩ := List.mem_map.mp m
    obtain rfl : y = l := same.trans (by simpa using List.find?_some e)
    simp [f] at my
  · rfl

/-- The load has requested nothing and been granted nothing. -/
def LoadTable.Idle (t : LoadTable) (l : Load) : Prop := (t.loads.get l).request = 0 ∧ (t.loads.get l).grant = 0

theorem LoadTable.allocate_idle {t : LoadTable} {l : Load} (f : (t.loads.get l).request = 0) (h : Nat) :
    (t.allocate h).Idle l ∧ ((t.allocate h).loads.get l).clipped = false := by
  unfold LoadTable.Idle
  rw [LoadTable.allocate_entry]
  simp [LoadEntry.grantedAt, LoadTable.grantOf_idle f, f]

/-- A delivery of 0 by a bay in automatic operation (R75) moves the table alone. -/
theorem Part.deliver_zero {s : Part} (auto : s.mode.automatic = true) (h : s.boiler.state ≠ .manual) (b : Bay) :
    ∃ table, s.deliver (.bay b) 0 = s.setTable table ∧ table.Idle (.bay b) ∧ table.pComp = s.table.pComp := by
  rcases s.deliver_cases (.bay b) 0 with ⟨m, _⟩ | ⟨_, e⟩
  · rw [m] at auto
    cases auto
  · rw [e]
    generalize hu : s.setLoad (.bay b) { s.load (.bay b) with request := min 0 (s.load (.bay b)).full } = u
    have zero : (u.table.loads.get (.bay b)).request = 0 := by simp [← hu, Part.setLoad]
    obtain ⟨idle, clipped⟩ := LoadTable.allocate_idle zero u.headroomNow
    have off : ¬ (u.divideHeadroom.load (.bay b)).clipped = true := by
      simpa [Part.load, Part.divideHeadroom] using clipped
    rw [Part.allocate_automatic (by simpa [← hu] using h), Part.countClipped, if_neg off]
    exact ⟨u.table.allocate u.headroomNow, by rw [← hu]; rfl, idle, by rw [← hu]; rfl⟩

/-- An immediate or ordinary stop in automatic operation (R138). -/
theorem Part.compStop_eq {s : Part} (auto : s.mode.automatic = true) (h : s.boiler.state ≠ .manual)
    (runs : s.comp.running = true) : s.compStop =
    { s with comp := ⟨false, .stopped, .running 180000⟩, table := s.table.allocate (s.headroomWith false) } := by
  rcases s.compStop_cases with ⟨off, _⟩ | ⟨_, e⟩
  · rw [off] at runs
    cases runs
  · rw [e, Part.allocate_automatic (by simpa using h), Part.completionTest_automatic (by simpa using auto)]
    rfl

/-- What an air holder's departure sets off, with the holder already out of `s` (R131, R133, R138). -/
theorem Part.airSettle_settles {s : Part} (auto : s.mode.automatic = true) (h : s.boiler.state ≠ .manual) :
    let rests : Prop := s.airSettle.air.holders = [] ∧ s.comp.running = true ∧ s.comp.onTimer = .expired
    s.AirGrants s.air.queue s.air.holders s.airSettle.air
      ∧ (s.airSettle.air.holders ≠ s.air.holders → s.StartTested s.airSettle)
      ∧ (s.airSettle.air.holders = s.air.holders → ¬ rests → s.CompKept s.airSettle)
      ∧ (rests → s.airSettle.comp = ⟨false, .stopped, .running 180000⟩
          ∧ s.airSettle.counters.plant = s.counters.plant)
      ∧ (∀ l, s.table.Idle l → s.airSettle.table.Idle l)
      ∧ s.airSettle.boiler = s.boiler ∧ s.airSettle.mode = s.mode ∧ s.airSettle.trips = s.trips
      ∧ s.airSettle.steam = s.steam := by
  obtain ⟨air, kept, tested, table, boiler, mode, trips, steam⟩ := Part.airGrantTest_grants h
  have idle : ∀ l, s.table.Idle l → s.airGrantTest.table.Idle l := fun l z => by
    rw [table]
    split
    · exact z
    · exact (LoadTable.allocate_idle z.1 _).1
  unfold Part.airSettle
  dsimp only
  by_cases e : s.airGrantTest.air.holders = []
  · rw [if_pos (by simpa using e)]
    have none : s.air.holders = [] := by
      rw [show s.airGrantTest.air = _ from air] at e
      exact (List.append_eq_nil_iff.mp e).1
    have same : s.airGrantTest = s := kept (e.trans none.symm)
    rw [same] at air tested
    rw [same]
    by_cases rests : s.comp.running = true ∧ s.comp.onTimer = .expired
    · have stop : s.ordinaryStopTest = s.compStop := if_pos (by simp [auto, none, rests.2])
      rw [stop, Part.compStop_eq auto h rests.1]
      exact ⟨air, fun n => absurd rfl n, fun _ n => absurd ⟨none, rests⟩ n, fun _ => ⟨rfl, rfl⟩,
        fun l z => (LoadTable.allocate_idle z.1 _).1, rfl, rfl, rfl, rfl⟩
    · have stop : s.ordinaryStopTest = s := by
        rcases s.ordinaryStopTest_cases with e | ⟨_, _, on, e⟩
        · exact e
        · rcases s.compStop_cases with ⟨_, k⟩ | ⟨runs, _⟩
          · exact e.trans k
          · exact absurd ⟨runs, on⟩ rests
      rw [stop]
      exact ⟨air, fun n => absurd rfl n, fun _ _ => ⟨rfl, rfl⟩, fun r => absurd r.2 rests, fun _ z => z, rfl, rfl, rfl,
        rfl⟩
  · rw [if_neg (by simpa using e)]
    exact ⟨air, tested, fun k _ => by rw [kept k]; exact ⟨rfl, rfl⟩, fun r => absurd r.1 e, idle, boiler, mode, trips,
      steam⟩

/-- A demand of a bay whose claim stands once is withdrawn as R65, R113, R119 and R133 have it. -/
theorem Part.withdrawDemand_withdrawn {s : Part} {b : Bay}
    (steamOnce : s.steam.holder = .auto b → b ∉ s.steam.queue)
    (airOnce : b ∈ s.air.holders.map AirHolder.bay → b ∉ s.air.queue)
    (auto : (s.runner b).demand ≠ .none → s.mode.automatic = true ∧ s.boiler.state ≠ .manual) :
    s.DemandWithdrawn (s.withdrawDemand b) b := by
  let u := s.setRunner b { s.runner b with demand := .none }
  have shut : ∀ c, (u.runner c).shut = (s.runner c).shut := fun c => by
    by_cases e : c = b <;> simp [u, Part.runner, Part.setRunner, e]
  have w : s.withdrawDemand b = match (s.runner b).demand with
    | .none => u
    | .steam => u.steamLeave b
    | .air _ => u.airLeave b := rfl
  generalize s.withdrawDemand b = t at w ⊢
  unfold Part.DemandWithdrawn
  cases d : (s.runner b).demand with
  | none =>
    rw [d] at w
    subst w
    exact ⟨rfl, rfl, rfl, rfl, rfl, rfl, ⟨rfl, rfl⟩, rfl⟩
  | steam =>
    obtain ⟨mode, manual⟩ := auto (by simp [d])
    let q := u.setSteam { u.steam with queue := u.steam.queue.erase b }
    replace w : t = if s.steam.holder = .auto b then q.releaseHolder else q := by rw [w, d]; rfl
    by_cases hold : s.steam.holder = .auto b
    · have same : q.steam = s.steam := by simp [q, u, List.erase_of_not_mem (steamOnce hold)]
      have released := q.releaseHolder_released.of_alike (s := s) ⟨same, rfl, rfl, rfl, rfl, shut⟩
      rw [if_pos hold, Part.releaseHolder_keeps (s := q) mode] at w
      subst w
      exact ⟨rfl, rfl, rfl, rfl, fun _ => same ▸ released, fun n => absurd hold n, rfl, ⟨rfl, rfl⟩, rfl⟩
    · rw [if_neg hold] at w
      subst w
      exact ⟨rfl, rfl, rfl, rfl, fun y => absurd y hold, fun _ => rfl, rfl, ⟨rfl, rfl⟩, rfl⟩
  | air target =>
    obtain ⟨mode, manual⟩ := auto (by simp [d])
    let a := u.air.without b
    let q := u.setAir { a with queue := a.queue.erase b }
    obtain ⟨table, e, idle, pComp⟩ := Part.deliver_zero (s := q) mode manual b
    obtain ⟨air, tested, kept, rests, idles, boiler, mode', trips, steam⟩ :=
      Part.airSettle_settles (s := q.setTable table) mode manual
    have isHolder : s.air.isHolder b = true ↔ b ∈ s.air.holders.map AirHolder.bay := by
      simp [Air.isHolder, List.any_eq_true]
    replace w : t = if s.air.isHolder b then (q.setTable table).airSettle else q.setTable table := by
      rw [w, d, ← e]
      rfl
    by_cases hold : b ∈ s.air.holders.map AirHolder.bay
    · have same : (u.air.without b).queue.erase b = s.air.queue := List.erase_of_not_mem (airOnce hold)
      rw [if_pos (isHolder.mpr hold)] at w
      have live : t.live = s.live := by simp [w, q, u]
      rw [← w] at air tested kept rests idles boiler mode' trips steam
      have b' := idles _ idle
      refine ⟨boiler, trips, live, mode', steam, b'.1, b'.2, fun n => absurd hold n, fun _ =>
        ⟨same ▸ air, fun n => ?_, kept, rests⟩⟩
      have tests := tested n
      simp only [Part.StartTested, Part.startWaits, show (q.setTable table).table.pComp = s.table.pComp from pComp]
        at tests
      exact tests
    · have same : s.air.holders.filter (fun h => h.bay ≠ b) = s.air.holders :=
        List.filter_eq_self.mpr fun h m => by
          simp only [decide_eq_true_eq]
          exact fun e => hold (e ▸ List.mem_map_of_mem m)
      rw [if_neg fun y => hold (isHolder.mp y)] at w
      have air' : t.air = { s.air with queue := s.air.queue.erase b } := by
        have all : a = s.air := congrArg (fun hs => ({ s.air with holders := hs } : Air)) same
        rw [w]
        show ({ a with queue := a.queue.erase b } : Air) = _
        rw [all]
      subst w
      exact ⟨rfl, rfl, rfl, rfl, rfl, idle.1, idle.2, fun _ => ⟨air', rfl, rfl⟩, fun y => absurd y hold⟩

/-! ## Under the law of service -/

theorem Part.ServiceLaw.running {s : Part} (law : s.ServiceLaw) {b : Bay} (h : (s.runner b).state = .running) :
    s.mode.automatic = true ∧ s.boiler.state ≠ .manual := by
  have plant : s.mode.pauses = false := by
    have e := law.causes.running b h
    rw [← law.causes.plant b]
    simp only [Causes.empty, Bool.and_eq_true, Bool.not_eq_true'] at e
    exact e.2
  have auto : s.mode.automatic = true := by cases m : s.mode <;> simp_all [Mode.pauses, Mode.automatic]
  refine ⟨auto, fun m => ?_⟩
  rw [law.boilerByHand m] at auto
  cases auto

/-- A bay that exports a demand withdraws it as R65 has it. -/
theorem Part.ServiceLaw.withdraws {s : Part} (law : s.ServiceLaw) (b : Bay) :
    s.DemandWithdrawn (s.withdrawDemand b) b := by
  refine Part.withdrawDemand_withdrawn (fun h => law.steamOnce.2 b (by rw [h]; rfl)) (fun h => ?_) fun d => ?_
  · exact fun q => List.disjoint_of_nodup_append law.airOnce q h
  · apply law.running
    by_contra n
    exact d (by rw [law.demand b, if_neg n])

/-! ## The boiler's entries -/

theorem Boiler.cleared_eq_entered (x : Boiler) (st : BoilerState) : x.cleared st = x.entered st := rfl

@[simp] theorem Boiler.entered_state (x : Boiler) (st : BoilerState) : (x.entered st).state = st := rfl

/-- A delivery beside a boiler that is not MANUAL leaves the boiler (R75, R149). -/
theorem Part.deliver_boiler {s : Part} (h : s.boiler.state ≠ .manual) (l : Load) (q : Nat) :
    (s.deliver l q).boiler = s.boiler := by
  rcases s.deliver_cases l q with ⟨_, e⟩ | ⟨_, e⟩
  · rw [e]
  · rw [e, Part.allocate_automatic (by simpa using h)]
    simp [Part.divideHeadroom]

/-- The entry to COLD at a halt, a restart or an exit from MANUAL leaves the boiler as R103 says. -/
theorem Part.boilerCold_boiler (s : Part) : s.boilerCold.boiler = s.boiler.goneCold := by
  unfold Part.boilerCold Boiler.goneCold
  split <;> rename_i h
  · rw [if_pos (by simpa using h)]
  · have stalled : ∀ u : Part, u.stallManifold.boiler = u.boiler := fun u => by
      rcases u.stallManifold_cases with e | ⟨_, _, _, e⟩ <;> simp [e]
    have cold : (s.setBoilerState (s.boiler.cleared .cold)).boiler = s.boiler.entered .cold := by
      rcases (s.setBoiler (s.boiler.cleared .cold)).rearm_cases with e | ⟨_, y, _⟩
      · exact congrArg Part.boiler e
      · simp [Part.lowwArmedNow_iff, Boiler.cleared] at y
    rw [if_neg (by simpa using h), Part.deliver_boiler (by simp [cold]), stalled, cold]

/-- The entry to plant MANUAL leaves the boiler as R103 says. -/
theorem Part.enterManual_boiler (s : Part) : s.enterManual.boiler = s.boiler.goneManual := by
  unfold Part.enterManual Boiler.goneManual
  simp only [Part.refreshArming, Part.divideHeadroom]
  by_cases h : s.boiler.state = .locked <;> simp [h, Boiler.cleared_eq_entered]

/-! ## A change of the capacity -/

/-- A C that is not raised and not below the number of holders changes nothing (R134). -/
theorem Part.capacityChanged_kept {s : Part} {old : Nat} (lowered : s.live.capacity ≤ old)
    (fits : s.air.holders.length ≤ s.live.capacity) : s.capacityChanged old = s := by
  simp [Part.capacityChanged, Nat.sub_eq_zero_of_le fits, Air.surplus, Nat.not_lt.mpr lowered]

/-- A raised C is the grant test and nothing else (R131, R134). -/
theorem Part.capacityChanged_raised {s : Part} {old : Nat} (raised : old < s.live.capacity)
    (fits : s.air.holders.length ≤ s.live.capacity) : s.capacityChanged old = s.airGrantTest := by
  simp [Part.capacityChanged, Nat.sub_eq_zero_of_le fits, Air.surplus, raised]

end Sys2Proof.Machine
end

