-- ==== Sys2Proof/Laws/Checks.lean ====
section
/-! SUPPORT. Sys2Proof/Laws/Checks.lean: the laws of Safety.lean as checks that evaluate, each with the proof that a part that
passes the check meets the law. The witnesses of the statements' hypotheses use them. -/

namespace Sys2Proof.Machine

theorem Port.mem_list (p : Port) : p ∈ Port.list := by
  cases p with
  | sp => decide
  | bp b => cases b <;> decide

theorem Load.mem_list (l : Load) : l ∈ Load.list := by
  cases l with
  | l0 => decide
  | bay b => cases b <;> decide

theorem Bay.all_of_list {p : Bay → Bool} (h : Bay.list.all p = true) (b : Bay) : p b = true :=
  List.all_eq_true.mp h b (Bay.mem_list b)

theorem Port.all_of_list {p : Port → Bool} (h : Port.list.all p = true) (q : Port) : p q = true :=
  List.all_eq_true.mp h q (Port.mem_list q)

theorem Load.all_of_list {p : Load → Bool} (h : Load.list.all p = true) (l : Load) : p l = true :=
  List.all_eq_true.mp h l (Load.mem_list l)

/-! ## The Phase Store and the cause sets -/

def storeOk (s : Part) : Bool :=
  decide (s.slotsUsed ≤ 48) && Bay.list.all (fun b => decide ((s.list b).length ≤ 20))
    && Bay.list.all (fun b => decide ((s.list b).Pairwise fun r q => r.place < q.place ∨ (r.place = q.place ∧ r.place ≠ 1)))
    && Bay.list.all (fun b => decide ((s.list b).map Record.tag).Nodup)
    && Bay.list.all (fun b => !(decide ((s.runner b).state = .idle) || decide ((s.runner b).state = .held))
        || (s.list b).all fun r => !r.isCurrent)

theorem storeOk_sound {s : Part} (h : storeOk s = true) : s.StoreLaw := by
  simp only [storeOk, Bool.and_eq_true] at h
  obtain ⟨⟨⟨⟨pool, lengths⟩, ordered⟩, tags⟩, resting⟩ := h
  have ordered := fun b => of_decide_eq_true (Bay.all_of_list ordered b)
  refine ⟨of_decide_eq_true pool, fun b => of_decide_eq_true (Bay.all_of_list lengths b), ordered,
    fun b => of_decide_eq_true (Bay.all_of_list tags b), ?_⟩
  intro b rests r hr
  have := Bay.all_of_list resting b
  have rests' : (decide ((s.runner b).state = .idle) || decide ((s.runner b).state = .held)) = true := by
    simpa using rests
  rw [rests', Bool.not_true, Bool.false_or] at this
  simpa using List.all_eq_true.mp this r hr

def causeOk (s : Part) : Bool :=
  Bay.list.all fun b =>
    let r := s.runner b
    decide (r.causes.closure = !r.shut) && decide (r.causes.plant = s.mode.pauses)
      && decide (r.state = .idle → r.causes.request = false) && decide (r.state = .running → r.causes.empty = true)
      && decide (r.state = .paused → r.causes.empty = false)

theorem causeOk_sound {s : Part} (h : causeOk s = true) : s.CauseLaw := by
  have := Bay.all_of_list h
  simp only [Bool.and_eq_true, decide_eq_true_eq] at this
  exact ⟨fun b => (this b).1.1.1.1, fun b => (this b).1.1.1.2, fun b => (this b).1.1.2, fun b => (this b).1.2,
    fun b => (this b).2⟩

/-! ## The arbiters -/

def Demand.isAir : Demand → Bool
  | .air _ => true
  | .none | .steam => false

theorem Demand.isAir_iff (d : Demand) : d.isAir = true ↔ ∃ t, d = .air t := by
  cases d <;> simp [Demand.isAir]

def serviceOk (s : Part) : Bool :=
  causeOk s && storeOk s
    && Bay.list.all (fun b =>
      let r := s.runner b
      decide (r.state = .running ∨ r.state = .paused → (s.current b).isSome = true)
        && decide (r.demand = if r.state = .running then demandFor (s.current b) else .none)
        && decide ((b ∈ s.steam.queue ∨ s.steam.holder = .auto b) ↔ r.demand = .steam)
        && decide ((b ∈ s.air.queue ∨ b ∈ s.air.holders.map AirHolder.bay) ↔ r.demand.isAir = true)
        && decide (s.steam.holder.bay = some b → b ∉ s.steam.queue)
        && decide (s.steam.holder = .manual b → s.mode = .manual))
    && decide (s.boiler.state = .manual → s.mode = .manual)
    && decide s.steam.queue.Nodup && decide (s.air.queue ++ s.air.holders.map AirHolder.bay).Nodup

theorem serviceOk_sound {s : Part} (h : serviceOk s = true) : s.ServiceLaw := by
  simp only [serviceOk, Bool.and_eq_true] at h
  obtain ⟨⟨⟨⟨⟨causes, store⟩, bays⟩, boilerByHand⟩, steamOnce⟩, airOnce⟩ := h
  have bays := Bay.all_of_list bays
  simp only [Bool.and_eq_true, decide_eq_true_eq] at bays
  exact
    { causes := causeOk_sound causes
      store := storeOk_sound store
      present := fun b => (bays b).1.1.1.1.1
      demand := fun b => (bays b).1.1.1.1.2
      steam := fun b => (bays b).1.1.1.2
      air := fun b => (bays b).1.1.2.trans (Demand.isAir_iff _)
      steamOnce := ⟨of_decide_eq_true steamOnce, fun b => (bays b).1.2⟩
      airOnce := of_decide_eq_true airOnce
      byHand := fun b => (bays b).2
      boilerByHand := of_decide_eq_true boilerByHand }

def manifoldOk (a : Steam) : Bool :=
  match a.manifold, a.holder with
  | .free, h => decide (h = .none)
  | .purge, h => decide (h = .none) && a.purge.isSome
  | .open, h => decide (h ≠ .none) && a.purge.isNone
  | .stalled, .auto _ => true
  | .stalled, _ => false

theorem manifoldOk_sound {a : Steam} (h : manifoldOk a = true) : a.Law := by
  rcases a with ⟨q, holder, manifold, slice, purge, y⟩
  cases manifold <;> cases holder <;> simp_all [manifoldOk, Steam.Law]

def valveOk (s : Part) : Bool :=
  Bay.list.all fun b =>
    decide (s.steam.valveOpen b = true →
      s.boilerLatched = false ∧ (s.runner b).shut = true ∧ (s.mode ≠ .manual → s.boiler.state = .ready))

theorem valveOk_sound {s : Part} (h : valveOk s = true) : s.ValveLaw :=
  fun b => of_decide_eq_true (Bay.all_of_list h b)

def grantOk (s : Part) : Bool :=
  decide (s.steam.manifold = .free → s.mode = .online → s.boilerLatched = false → s.steam.queue = [])
    && Bay.list.all (fun b =>
      decide (s.steam.manifold = .stalled → s.steam.holder = .auto b →
        ¬ (s.boiler.state = .ready ∧ s.mode = .online ∧ s.steam.purge = none ∧ s.boilerLatched = false
          ∧ (s.runner b).shut = true)))
    && decide (s.mode = .starting ∨ s.mode = .online → s.air.holders.length < s.live.capacity → s.air.queue = [])

theorem grantOk_sound {s : Part} (h : grantOk s = true) : s.GrantLaw := by
  simp only [grantOk, Bool.and_eq_true] at h
  exact ⟨of_decide_eq_true h.1.1, fun b => of_decide_eq_true (Bay.all_of_list h.1.2 b), of_decide_eq_true h.2⟩

/-! ## Trips, the compressor and the dampers -/

def tripOk (s : Part) : Bool :=
  decide (s.boiler.state = .locked ↔ s.boilerLatched = true)
    && decide ((s.load .l0).forced = (s.boilerLatched || s.brownActive))
    && Bay.list.all (fun b => decide ((s.load (.bay b)).forced = s.brownActive))
    && Load.list.all fun l => decide ((s.load l).forced = true → (s.load l).grant = 0 ∧ (s.load l).duty = 0)

theorem tripOk_sound {s : Part} (h : tripOk s = true) : s.TripLaw := by
  simp only [tripOk, Bool.and_eq_true] at h
  obtain ⟨⟨⟨locked, boilerHeater⟩, bayHeaters⟩, unpowered⟩ := h
  exact ⟨of_decide_eq_true locked, of_decide_eq_true boilerHeater,
    fun b => of_decide_eq_true (Bay.all_of_list bayHeaters b), fun l => of_decide_eq_true (Load.all_of_list unpowered l)⟩

def armingOk (s : Part) : Bool :=
  decide (s.trips.armed = true ↔ (s.boiler.state = .heating ∨ s.boiler.state = .ready ∨ s.boiler.state = .keepwarm)
    ∨ (s.boiler.state = .manual ∧ 0 < (s.load .l0).duty))

theorem armingOk_sound {s : Part} (h : armingOk s = true) : s.ArmingLaw := by
  simpa only [armingOk, decide_eq_true_eq, Part.ArmingLaw] using h

def lowwOk (s : Part) : Bool := !s.trips.armed || !(s.trips.inputs.get .loww).active

theorem lowwOk_sound {s : Part} (h : lowwOk s = true) : s.LowwLaw := by
  intro armed
  simpa [lowwOk, armed] using h

def compOk (s : Part) : Bool :=
  if s.comp.running then
    decide (s.comp.onTimer ≠ .stopped) && decide (s.comp.offTimer = .stopped)
      && decide (s.mode = .starting ∨ s.mode = .online ∨ s.mode = .manual) && !s.condActive && !s.brownActive
  else decide (s.comp.onTimer = .stopped) && decide (s.comp.offTimer ≠ .stopped)

theorem compOk_sound {s : Part} (h : compOk s = true) : s.CompressorLaw := by
  by_cases r : s.comp.running = true
  · simp only [compOk, r, if_true, Bool.and_eq_true, decide_eq_true_eq, Bool.not_eq_true'] at h
    exact ⟨fun _ => ⟨h.1.1.1.1, h.1.1.1.2⟩, fun n => by simp [r] at n, fun _ => h.1.1.2, fun _ => ⟨h.1.2, h.2⟩⟩
  · simp only [compOk, r, Bool.false_eq_true, if_false, Bool.and_eq_true, decide_eq_true_eq] at h
    exact ⟨fun y => absurd y r, fun _ => h, fun y => absurd y r, fun y => absurd y r⟩

def dampOk (s : Part) : Bool :=
  decide (s.air.holders.length ≤ s.live.capacity)
    && (decide (s.mode = .manual) || Bay.list.all fun b => !s.air.marks.get b)

theorem dampOk_sound {s : Part} (h : dampOk s = true) : s.DamperLaw := by
  simp only [dampOk, Bool.and_eq_true, Bool.or_eq_true, decide_eq_true_eq] at h
  refine ⟨h.1, fun m b => ?_⟩
  rcases h.2 with e | e
  · exact absurd e m
  · simpa using Bay.all_of_list e b

/-! ## The heaters -/

def idleOk (s : Part) (l : Load) : Bool :=
  decide ((s.load l).request = 0) && decide ((s.load l).grant = 0) && decide ((s.load l).duty = 0)

theorem idleOk_sound {s : Part} {l : Load} (h : idleOk s l = true) : s.idleLoad l := by
  simpa [idleOk, Part.idleLoad, and_assoc] using h

def heatOk (s : Part) : Bool :=
  decide (s.mode = .manual) || (Load.list.all fun l => (s.load l).manual.isNone)
    && Bay.list.all fun b => decide (b ∈ s.air.holders.map AirHolder.bay) || idleOk s (.bay b)

theorem heatOk_sound {s : Part} (h : heatOk s = true) : s.HeatLaw := by
  simp only [heatOk, Bool.or_eq_true, Bool.and_eq_true, decide_eq_true_eq] at h
  refine ⟨fun m l => ?_, fun m b waits => ?_⟩ <;> rcases h with e | ⟨manual, bays⟩
  · exact absurd e m
  · exact Option.isNone_iff_eq_none.mp (Load.all_of_list manual l)
  · exact absurd e m
  · have := Bay.all_of_list bays b
    simp only [Bool.or_eq_true, decide_eq_true_eq] at this
    exact idleOk_sound (this.resolve_left waits)

/-! ## The budget -/

theorem Param.mem_list (q : Param) : q ∈ Param.liveList ++ Param.stagedList := by
  cases q <;> first | decide | (rename_i b; cases b <;> decide)

def settingsOk (c : Settings) : Bool :=
  (Param.liveList ++ Param.stagedList).all (fun q => decide (q.lo ≤ c.get q ∧ c.get q ≤ q.hi))
    && decide (c.budget % 10 = 0)

theorem settingsOk_sound {c : Settings} (h : settingsOk c = true) : c.InRange := by
  simp only [settingsOk, Bool.and_eq_true] at h
  exact ⟨fun q => of_decide_eq_true (List.all_eq_true.mp h.1 q (Param.mem_list q)), of_decide_eq_true h.2⟩

def budgetOk (s : Part) : Bool :=
  settingsOk s.live && settingsOk s.staged && Load.list.all (fun l => decide ((s.load l).weight = s.live.weight l))
    && Load.list.all (fun l =>
      decide ((s.load l).grant ≤ (s.load l).request) && decide ((s.load l).request ≤ (s.load l).full)
        && decide ((s.load l).actual ≤ (s.load l).grant) && decide ((s.load l).manual.getD 0 ≤ 1000))
    && decide (s.comp.running = true → s.admits = true)
    && decide (s.comp.running = true → s.mode = .starting ∨ s.mode = .online ∨ s.mode = .manual)
    && decide (s.live.standing + (if s.comp.running then s.table.pComp else 0) + s.grants ≤ s.live.budget)

theorem budgetOk_sound {s : Part} (h : budgetOk s = true) : s.BudgetLaw := by
  simp only [budgetOk, Bool.and_eq_true] at h
  obtain ⟨⟨⟨⟨⟨⟨live, staged⟩, weights⟩, loads⟩, admitted⟩, mode⟩, budget⟩ := h
  have loads := Load.all_of_list loads
  simp only [Bool.and_eq_true, decide_eq_true_eq] at loads
  exact
    { live := settingsOk_sound live
      staged := settingsOk_sound staged
      weights := fun l => of_decide_eq_true (Load.all_of_list weights l)
      loads := fun l => ⟨(loads l).1.1.1, (loads l).1.1.2⟩
      actual := fun l => (loads l).1.2
      manual := fun l d e => by simpa [e] using (loads l).2
      admitted := of_decide_eq_true admitted
      mode := of_decide_eq_true mode
      budget := of_decide_eq_true budget }

/-! ## Ports -/

def portOk (x : PortState) : Bool :=
  decide (x.buffer.length ≤ 2) && (x.buffer.isEmpty || x.tx.isSome)
    && match x.rx with
      | .idle => true
      | .assembling code none args sum => decide (args = []) && decide (sum = code)
      | .assembling code (some n) args sum =>
        decide (n ≤ 24) && decide (args.length ≤ n)
          && decide (sum = code + byteOf n + args.foldl (· + ·) 0)

theorem portOk_sound {x : PortState} (h : portOk x = true) : x.Law := by
  rcases x with ⟨rx, brk, buffer, tx, left, up⟩
  simp only [portOk, Bool.and_eq_true, Bool.or_eq_true, decide_eq_true_eq] at h
  refine ⟨h.1.1, fun n => ?_, ?_, ?_⟩
  · rcases h.1.2 with e | e
    · exact absurd (List.isEmpty_iff.mp e) n
    · exact e
  · rintro code args sum (rfl : rx = _)
    simpa using h.2
  · rintro code n args sum (rfl : rx = _)
    simpa [and_assoc] using h.2

end Sys2Proof.Machine
end

