-- ==== Sys2Proof/WellFormed.lean ====
section
/-! DEFINITION. Sys2Proof/WellFormed.lean: the operands that the part can meet: argument lists that fit a request message,
the numbers of samples that one second holds, and a length character above 24. A command whose operands are outside
these still has a meaning; nothing outside the part can send it. -/

namespace Sys2Proof

/-- An argument list fits a request message (section 1.2). -/
def argsFit (args : List Byte) : Bool := args.length ≤ Config.argMax

/-- The operand checks of each command. -/
def Instr.wellFormed : Instr → Bool
  | .powerOnReset _ | .headerReceived _ _ | .messageComplete _ _ | .characterFramingError _ | .gapTimeout _
  | .breakDetected _ | .replyEnd _ | .frameReply _ _ | .marker0Character _ _ | .rxReturnsHigh _ => true
  | .lengthAbove24 _ len => Config.argMax < len.toNat
  | .append _ args | .withdraw _ args | .collect _ args | .runStart _ args | .runPause _ args | .runResume _ args
  | .runFinish _ args | .runAbort _ args | .bayAbort _ args | .closureReport _ args | .bayQuery _ args
  | .plantQuery _ args | .noteRead _ args | .noteAck _ args | .noteEnable _ args | .plantStart _ args
  | .plantHalt _ args | .plantRestart _ args | .manualEnter _ args | .manualExit _ args | .cfgLive _ args
  | .cfgStage _ args | .cfgRead _ args | .cntRead _ args | .cntReadClear _ args | .ledgerRead _ args
  | .faultClear _ args => argsFit args
  | .manDriveHeat _ _ _ | .manDriveFeed _ _ | .manDriveValveOpen _ _ | .manDriveValveClose _ _ | .manDriveCompOn _
  | .manDriveCompOff _ | .manDriveDampOpen _ _ | .manDriveDampClose _ _ => true
  | .allocatorSecond samples => samples.length = 100
  | .boilerSecond samples => samples.length = 10
  | .airLoopSecond _ samples => samples.length = 10
  | .holdExpiry bays => bays ≠ [] && decide bays.Nodup
  | .runnerSecond _ | .heaterPeriodStart _ | .heaterOnTimeEnd _ | .feedPulseEnd | .probeReadingChange _ _
  | .meteringSecond | .sliceExpiry | .purgeEnd | .compressorSecond | .offTimerExpiry | .onTimerExpiry
  | .tripInputChange _ _ | .tripUnitSecond => true

end Sys2Proof
end

