-- ==== Sys2Proof/Laws/PerInstr.lean ====
section
/-! SUPPORT. Sys2Proof/Laws/PerInstr.lean: one lemma per command: the message that carries a request (R3, section 1.2). -/

namespace Sys2Proof.Laws

open Sys2Proof.Machine

/-! ## The sum of a message -/

theorem foldl_add (xs : List Byte) (a : Byte) : xs.foldl (· + ·) a = a + xs.foldl (· + ·) 0 := by
  induction xs generalizing a with
  | nil => simp
  | cons x xs ih => rw [List.foldl_cons, List.foldl_cons, ih, ih (0 + x)]; bv_omega

/-- The bytes of a request's message sum to 0 modulo 256 (R3). -/
theorem message_sums_to_zero (code : Byte) (args : List Byte) :
    (code :: requestTail code args).foldl (· + ·) 0 = 0 := by
  simp only [requestTail, requestCheck, List.foldl_cons, List.foldl_append, List.foldl_nil]
  rw [foldl_add]
  bv_omega

/-- The message of a request command: at most 24 arguments, and bytes that sum to 0 with its check byte (R3). -/
def Message.Statement (i : Instr) : Prop :=
  i.wellFormed = true → ∀ p r args, requestOf i = some (p, r, args) →
    args.length ≤ 24 ∧ (r.code :: requestTail r.code args).foldl (· + ·) 0 = 0

theorem Message.of_args {i : Instr} {p : Port} {r : Request} {args : List Byte} (h : requestOf i = some (p, r, args))
    (fits : i.wellFormed = true → args.length ≤ 24) : Message.Statement i := by
  intro w p' r' args' e
  rw [h] at e
  cases e
  exact ⟨fits w, message_sums_to_zero _ _⟩

theorem Message.of_none {i : Instr} (h : requestOf i = none) : Message.Statement i := by
  intro _ p r args e
  rw [h] at e
  cases e

theorem Message.powerOnReset (edge : ResetEdge) : Message.Statement (.powerOnReset edge) :=
  of_none rfl

theorem Message.headerReceived (p : Port) (code : Byte) : Message.Statement (.headerReceived p code) :=
  of_none rfl

theorem Message.lengthAbove24 (p : Port) (len : Byte) : Message.Statement (.lengthAbove24 p len) :=
  of_none rfl

theorem Message.messageComplete (p : Port) (check : Byte) : Message.Statement (.messageComplete p check) :=
  of_none rfl

theorem Message.characterFramingError (p : Port) : Message.Statement (.characterFramingError p) :=
  of_none rfl

theorem Message.gapTimeout (p : Port) : Message.Statement (.gapTimeout p) :=
  of_none rfl

theorem Message.breakDetected (p : Port) : Message.Statement (.breakDetected p) :=
  of_none rfl

theorem Message.replyEnd (p : Port) : Message.Statement (.replyEnd p) :=
  of_none rfl

theorem Message.frameReply (p : Port) (code : Byte) : Message.Statement (.frameReply p code) :=
  of_none rfl

theorem Message.append (p : Port) (args : List Byte) : Message.Statement (.append p args) :=
  of_args rfl fun w => of_decide_eq_true w

theorem Message.withdraw (p : Port) (args : List Byte) : Message.Statement (.withdraw p args) :=
  of_args rfl fun w => of_decide_eq_true w

theorem Message.collect (p : Port) (args : List Byte) : Message.Statement (.collect p args) :=
  of_args rfl fun w => of_decide_eq_true w

theorem Message.runStart (p : Port) (args : List Byte) : Message.Statement (.runStart p args) :=
  of_args rfl fun w => of_decide_eq_true w

theorem Message.runPause (p : Port) (args : List Byte) : Message.Statement (.runPause p args) :=
  of_args rfl fun w => of_decide_eq_true w

theorem Message.runResume (p : Port) (args : List Byte) : Message.Statement (.runResume p args) :=
  of_args rfl fun w => of_decide_eq_true w

theorem Message.runFinish (p : Port) (args : List Byte) : Message.Statement (.runFinish p args) :=
  of_args rfl fun w => of_decide_eq_true w

theorem Message.runAbort (p : Port) (args : List Byte) : Message.Statement (.runAbort p args) :=
  of_args rfl fun w => of_decide_eq_true w

theorem Message.bayAbort (p : Port) (args : List Byte) : Message.Statement (.bayAbort p args) :=
  of_args rfl fun w => of_decide_eq_true w

theorem Message.closureReport (p : Port) (args : List Byte) : Message.Statement (.closureReport p args) :=
  of_args rfl fun w => of_decide_eq_true w

theorem Message.bayQuery (p : Port) (args : List Byte) : Message.Statement (.bayQuery p args) :=
  of_args rfl fun w => of_decide_eq_true w

theorem Message.plantQuery (p : Port) (args : List Byte) : Message.Statement (.plantQuery p args) :=
  of_args rfl fun w => of_decide_eq_true w

theorem Message.noteRead (p : Port) (args : List Byte) : Message.Statement (.noteRead p args) :=
  of_args rfl fun w => of_decide_eq_true w

theorem Message.noteAck (p : Port) (args : List Byte) : Message.Statement (.noteAck p args) :=
  of_args rfl fun w => of_decide_eq_true w

theorem Message.noteEnable (p : Port) (args : List Byte) : Message.Statement (.noteEnable p args) :=
  of_args rfl fun w => of_decide_eq_true w

theorem Message.plantStart (p : Port) (args : List Byte) : Message.Statement (.plantStart p args) :=
  of_args rfl fun w => of_decide_eq_true w

theorem Message.plantHalt (p : Port) (args : List Byte) : Message.Statement (.plantHalt p args) :=
  of_args rfl fun w => of_decide_eq_true w

theorem Message.plantRestart (p : Port) (args : List Byte) : Message.Statement (.plantRestart p args) :=
  of_args rfl fun w => of_decide_eq_true w

theorem Message.manualEnter (p : Port) (args : List Byte) : Message.Statement (.manualEnter p args) :=
  of_args rfl fun w => of_decide_eq_true w

theorem Message.manDriveHeat (p : Port) (heater : Load) (duty : Half) : Message.Statement (.manDriveHeat p heater duty) :=
  of_args rfl fun _ => by simp [Drive.args, le16]

theorem Message.manDriveFeed (p : Port) (count : Half) : Message.Statement (.manDriveFeed p count) :=
  of_args rfl fun _ => by simp [Drive.args, le16]

theorem Message.manDriveValveOpen (p : Port) (b : Bay) : Message.Statement (.manDriveValveOpen p b) :=
  of_args rfl fun _ => by simp [Drive.args, le16]

theorem Message.manDriveValveClose (p : Port) (b : Bay) : Message.Statement (.manDriveValveClose p b) :=
  of_args rfl fun _ => by simp [Drive.args, le16]

theorem Message.manDriveCompOn (p : Port) : Message.Statement (.manDriveCompOn p) :=
  of_args rfl fun _ => by simp [Drive.args, le16]

theorem Message.manDriveCompOff (p : Port) : Message.Statement (.manDriveCompOff p) :=
  of_args rfl fun _ => by simp [Drive.args, le16]

theorem Message.manDriveDampOpen (p : Port) (b : Bay) : Message.Statement (.manDriveDampOpen p b) :=
  of_args rfl fun _ => by simp [Drive.args, le16]

theorem Message.manDriveDampClose (p : Port) (b : Bay) : Message.Statement (.manDriveDampClose p b) :=
  of_args rfl fun _ => by simp [Drive.args, le16]

theorem Message.manualExit (p : Port) (args : List Byte) : Message.Statement (.manualExit p args) :=
  of_args rfl fun w => of_decide_eq_true w

theorem Message.cfgLive (p : Port) (args : List Byte) : Message.Statement (.cfgLive p args) :=
  of_args rfl fun w => of_decide_eq_true w

theorem Message.cfgStage (p : Port) (args : List Byte) : Message.Statement (.cfgStage p args) :=
  of_args rfl fun w => of_decide_eq_true w

theorem Message.cfgRead (p : Port) (args : List Byte) : Message.Statement (.cfgRead p args) :=
  of_args rfl fun w => of_decide_eq_true w

theorem Message.cntRead (p : Port) (args : List Byte) : Message.Statement (.cntRead p args) :=
  of_args rfl fun w => of_decide_eq_true w

theorem Message.cntReadClear (p : Port) (args : List Byte) : Message.Statement (.cntReadClear p args) :=
  of_args rfl fun w => of_decide_eq_true w

theorem Message.ledgerRead (p : Port) (args : List Byte) : Message.Statement (.ledgerRead p args) :=
  of_args rfl fun w => of_decide_eq_true w

theorem Message.faultClear (p : Port) (args : List Byte) : Message.Statement (.faultClear p args) :=
  of_args rfl fun w => of_decide_eq_true w

theorem Message.runnerSecond (b : Bay) : Message.Statement (.runnerSecond b) :=
  of_none rfl

theorem Message.allocatorSecond (samples : List Nat) : Message.Statement (.allocatorSecond samples) :=
  of_none rfl

theorem Message.heaterPeriodStart (l : Load) : Message.Statement (.heaterPeriodStart l) :=
  of_none rfl

theorem Message.heaterOnTimeEnd (l : Load) : Message.Statement (.heaterOnTimeEnd l) :=
  of_none rfl

theorem Message.boilerSecond (samples : List Int) : Message.Statement (.boilerSecond samples) :=
  of_none rfl

theorem Message.feedPulseEnd : Message.Statement .feedPulseEnd :=
  of_none rfl

theorem Message.probeReadingChange (probe : Probe) (wet : Bool) : Message.Statement (.probeReadingChange probe wet) :=
  of_none rfl

theorem Message.meteringSecond : Message.Statement .meteringSecond :=
  of_none rfl

theorem Message.sliceExpiry : Message.Statement .sliceExpiry :=
  of_none rfl

theorem Message.purgeEnd : Message.Statement .purgeEnd :=
  of_none rfl

theorem Message.holdExpiry (bays : List Bay) : Message.Statement (.holdExpiry bays) :=
  of_none rfl

theorem Message.compressorSecond : Message.Statement .compressorSecond :=
  of_none rfl

theorem Message.offTimerExpiry : Message.Statement .offTimerExpiry :=
  of_none rfl

theorem Message.onTimerExpiry : Message.Statement .onTimerExpiry :=
  of_none rfl

theorem Message.airLoopSecond (b : Bay) (samples : List Int) : Message.Statement (.airLoopSecond b samples) :=
  of_none rfl

theorem Message.tripInputChange (i : TripInput) (active : Bool) : Message.Statement (.tripInputChange i active) :=
  of_none rfl

theorem Message.tripUnitSecond : Message.Statement .tripUnitSecond :=
  of_none rfl

theorem Message.marker0Character (p : Port) (byte : Byte) : Message.Statement (.marker0Character p byte) :=
  of_none rfl

theorem Message.rxReturnsHigh (p : Port) : Message.Statement (.rxReturnsHigh p) :=
  of_none rfl

end Sys2Proof.Laws
end

