-- ==== Sys2Proof/Tests/Slice0.lean ====
section
/-! SUPPORT. Sys2Proof/Tests/Slice0.lean: tests on small states. First the operand checks and the manual's own worked numbers;
then, for every statement with hypotheses, a named theorem with states and operands that meet them. -/

namespace Sys2Proof.Tests

/- The theorems are checked one after another: together they would hold a thread each while they wait. -/
set_option Elab.async false

open Sys2Proof Sys2Proof.Machine

/-! ## Operand checks: an ill-formed term for each -/

theorem test_wf_args_above_24 : (Instr.append .sp (List.replicate 25 0)).wellFormed = false := by decide
theorem test_wf_args_at_24 : (Instr.append .sp (List.replicate 24 0)).wellFormed = true := by decide
theorem test_wf_length_of_24 : (Instr.lengthAbove24 .sp 24).wellFormed = false := by decide
theorem test_wf_length_of_25 : (Instr.lengthAbove24 .sp 25).wellFormed = true := by decide
theorem test_wf_volt_samples : (Instr.allocatorSecond [230000]).wellFormed = false := by decide
theorem test_wf_boiler_samples : (Instr.boilerSecond (List.replicate 11 0)).wellFormed = false := by decide
theorem test_wf_air_samples : (Instr.airLoopSecond .b1 []).wellFormed = false := by decide
theorem test_wf_holds_none : (Instr.holdExpiry []).wellFormed = false := by decide
theorem test_wf_holds_twice : (Instr.holdExpiry [.b2, .b2]).wellFormed = false := by decide
theorem test_table_gives_no_bits : decodeTableWord 8 0x11 = none ∧ State.reset.withFetchWord 8 0x11 = State.reset :=
  ⟨rfl, rfl⟩

/-! ## States -/

/-- The part after a command. -/
def after (c : Instr) (s : Part) : Part :=
  match exec c ⟨s, []⟩ with
  | .next t => t.part
  | .fault _ | .refused _ => s

/-- The part after a list of commands. -/
def afterAll (cs : List Instr) (s : Part) : Part := cs.foldl (fun s c => after c s) s

/-- The reply being sent on a port. -/
def replyOn (p : Port) (s : Part) : Option (Result × List Byte) := (s.port p).tx.map fun r => (r.result, r.data)

def rec_ (tag : Byte) (body : Body) (phase : Phase) : Record := ⟨tag, true, false, body, phase, 0, 0, 0, 0⟩

/-- A runner that exports its demand. -/
def runs (d : Demand) : Runner := ⟨.running, ⟨false, false, false⟩, true, d, 0, false⟩

/-- ONLINE with everything in use: bay 1 holds the OPEN manifold for a STEAM record, bay 2 waits for it with a REFRESH
record in BURST, bay 3 holds air for a DRY record beside a RUNNING compressor, and bay 4 is PAUSED on request. -/
def online : Part :=
  { State.reset.part with
    mode := .online
    store := ⟨⟨[rec_ 1 (.rest 5) (.done .complete), rec_ 2 (.steam 10 600 9990) (.current ⟨.burst, 0, 0, 3599, 0⟩),
        rec_ 3 (.rest 60) .pending], 4⟩,
      ⟨[rec_ 1 (.refresh 5 2 30 500 600 0 0 0) (.current ⟨.burst, 0, 0, 0, 0⟩)], 2⟩,
      ⟨[rec_ 1 (.dry 500 900 0) (.current ⟨.burst, 0, 0, 0, 0⟩)], 2⟩,
      ⟨[rec_ 1 (.rest 60) (.current ⟨.burst, 0, 0, 0, 0⟩)], 2⟩⟩
    runners := ⟨runs .steam, runs .steam, runs (.air 500), ⟨.paused, ⟨true, false, false⟩, true, .none, 0, false⟩⟩
    steam := ⟨[.b2], .auto .b1, .open, some 5000, none, 1550⟩
    air := ⟨[], [⟨.b3, 1000, 300⟩], .all false⟩
    comp := ⟨true, .expired, .stopped⟩
    boiler := { Boiler.reset with state := .ready, tb := 1195, hiWet := true, loWet := true }
    trips := { TripUnit.reset with armed := true } }

/-- ONLINE at rest: bay 1 is HELD and bay 4 IDLE, both with a PENDING record, and bays 2 and 3 are IDLE with none. -/
def resting : Part :=
  { State.reset.part with
    mode := .online
    store := ⟨⟨[rec_ 1 (.rest 5) (.done .complete), rec_ 2 (.steam 10 600 0) .pending], 3⟩, ⟨[], 0⟩, ⟨[], 0⟩,
      ⟨[rec_ 7 (.steam 10 600 0) .pending], 8⟩⟩
    runners := ⟨⟨.held, ⟨false, false, false⟩, true, .none, 0, false⟩, ⟨.idle, ⟨false, false, false⟩, true, .none, 0, false⟩,
      ⟨.idle, ⟨false, true, false⟩, false, .none, 0, false⟩, ⟨.idle, ⟨false, false, false⟩, true, .none, 0, false⟩⟩
    comp := ⟨false, .stopped, .expired⟩
    boiler := { Boiler.reset with state := .heating, tb := 1100, loWet := true }
    trips := { TripUnit.reset with armed := true } }

/-- Plant MANUAL with bay 1's closure SHUT and its valve open by hand, and a drying bay's damper open. -/
def byHand : Part :=
  { State.reset.part with
    mode := .manual
    runners := ⟨⟨.idle, ⟨false, false, true⟩, true, .none, 0, false⟩, .reset, .reset, .reset⟩
    steam := ⟨[], .manual .b1, .open, none, none, 1550⟩
    air := ⟨[], [], ⟨false, true, false, false⟩⟩
    boiler := { Boiler.reset with state := .manual }
    table := LoadTable.reset.withManual (some 0)
    comp := ⟨false, .stopped, .expired⟩ }

/-- Plant MANUAL with every drive at rest. -/
def byHandClosed : Part := { byHand with steam := Steam.reset }

/-- A boiler-class latch with its L0 forced, in the state of `s`. -/
def latched (s : Part) : Part :=
  { s with
    trips := { s.trips with latches := { s.trips.latches with ovp := true }, armed := false }
    boiler := s.boiler.cleared .locked
    steam := { Steam.reset with queue := [] }
    table := { s.table with loads := s.table.loads.set .l0 { s.table.loads.l0 with forced := true } } }

/-- A debounced LOWW input that is ACTIVE, with LOWW not armed. -/
def low (s : Part) : Part :=
  { s with trips := { s.trips with armed := false, inputs := s.trips.inputs.set .loww ⟨true, 0⟩ } }

/-- BROWN standing: every load forced. -/
def brown (s : Part) : Part :=
  { s with
    trips := { s.trips with brownSource := true, highRun := 4 }
    table := { s.table with loads := s.table.loads.map fun e => { e with forced := true } }
    comp := ⟨false, .stopped, .expired⟩ }

theorem online_service : online.ServiceLaw := serviceOk_sound (by decide +kernel)
theorem resting_service : resting.ServiceLaw := serviceOk_sound (by decide +kernel)
theorem byHand_service : byHand.ServiceLaw := serviceOk_sound (by decide +kernel)
theorem online_arming : online.ArmingLaw := armingOk_sound (by decide +kernel)
theorem reset_service : State.reset.part.ServiceLaw := serviceOk_sound (by decide +kernel)

/-! ## The manual's worked numbers -/

/-- R3: code 41h, length 1, argument 11h: the check byte is ADh. -/
theorem test_check_byte : requestCheck 0x41 [0x11] = 0xAD := by decide +kernel

/-- Section 2: a DRY record at 78.0 °C is stored at 70.0 °C, and the counter passes from 255 to 0. -/
theorem test_append_clamps_and_wraps :
    let s := { resting with store := ⟨⟨[], 254⟩, ⟨[], 0⟩, ⟨[], 0⟩, ⟨[], 0⟩⟩ }
    let t := afterAll [.append (.bp .b1) [1, 0, 0x5E, 1, 0x84, 3], .replyEnd (.bp .b1), .append (.bp .b1) [2, 0, 0x0C, 3, 0x60, 9]] s
    ((t.list .b1).map fun r => (r.tag, r.body)) = [(254, .steam 350 900 0), (255, .dry 700 2400 0)]
      ∧ (t.store.get .b1).nextTag = 0 ∧ replyOn (.bp .b1) t = some (.ok, [255, 1, 46]) := by decide +kernel

/-- Section 2: tags 6 and 7 are held, so the next tag is 8. -/
theorem test_tag_passed_over :
    let held := [rec_ 6 (.rest 5) (.done .complete), rec_ 7 (.rest 5) (.done .complete), rec_ 12 (.rest 5) .pending]
    chooseTag held held.length 6 = 8 := by decide +kernel

/-- The table of section 4.9 at 218 V with these requests and weights. -/
def sharing : LoadTable :=
  let e (q w f : Nat) : LoadEntry := { LoadEntry.reset f w with request := q }
  { LoadTable.reset with loads := ⟨e 2156 8 2156, ⟨e 539 4 539, e 300 4 539, e 120 2 539, e 0 4 539⟩⟩ }

/-- 2,400 W go 1,441, 539, 300 and 120 in 3 rounds, at duties 668, 1000, 556 and 222 (section 4.9). -/
theorem test_allocation_example :
    let t := sharing.allocate 2400
    (Load.list.map fun l => ((t.loads.get l).grant, (t.loads.get l).duty))
        = [(1441, 668), (539, 1000), (300, 556), (120, 222), (0, 0)]
      ∧ t.rounds = 3 ∧ t.unallocated = 0 := by decide +kernel

/-- 3,300 W cover every request, with 185 W left (section 4.9). -/
theorem test_allocation_all_fits :
    (sharing.allocate 3300).rounds = 0 ∧ (sharing.allocate 3300).unallocated = 185 := by decide +kernel

/-- The budget cut of the worked sequences: 850 W go 400, 226 and 224. -/
theorem test_allocation_leftover :
    let e (q w : Nat) : LoadEntry := { LoadEntry.reset 600 w with request := q }
    let t := ({ LoadTable.reset with
      loads := ⟨{ LoadEntry.reset 2400 8 with request := 400 }, ⟨e 600 4, e 0 4, e 350 4, e 0 4⟩⟩ } : LoadTable).allocate 850
    (Load.list.map fun l => ((t.loads.get l).grant, (t.loads.get l).duty, (t.loads.get l).clipped))
      = [(400, 166, false), (226, 376, true), (0, 0, false), (224, 373, true), (0, 0, false)] := by decide +kernel

/-- A heater at 2,100 W credits 904 mg five times and then 905, the carry going by 600 (the morning rush). -/
theorem test_credits_of_the_rush :
    let s := { online with
      store := online.store.set .b1 ⟨[rec_ 2 (.steam 15 600 0) (.current ⟨.burst, 0, 0, 0, 0⟩)], 3⟩
      table := { online.table with loads := online.table.loads.set .l0 { LoadEntry.reset 2400 8 with duty := 875 } } }
    let t := afterAll (List.replicate 6 .meteringSecond) s
    (t.current .b1).map (fun x => (x.1.body, x.2.steamCarry)) = some (.steam 15 600 5425, 0)
      ∧ (t.bayCounters .b1).steamMg = 5425 := by decide +kernel

/-- A MAN_DRIVE of 1,200 per-mille is clamped to 1,000 (R181, R92): the reply of a heater drive. -/
theorem test_drive_clamps :
    replyOn .sp (after (.manDriveHeat .sp (.bay .b1) 1200) byHandClosed)
      = some (.ok, [2, 0xE8, 3, 1, 0xE8, 3, 0x58, 2, 0x58, 2, 0xE8, 3, 0]) := by decide +kernel

/-- The slice expires with bay 2 waiting: bay 1 goes to the tail and the line purges for 1 s (the morning rush). -/
theorem test_slice_rotates : (after .sliceExpiry online).steam
    = ⟨[.b2, .b1], .none, .purge, none, some 1000, 1550⟩ := by decide +kernel

/-- The overpressure trip of the worked sequences: the holder returns to the head of the queue. -/
theorem test_overpressure : let t := after (.tripInputChange .ovp true) online
    t.boiler.state = .locked ∧ t.steam = ⟨[.b1, .b2], .none, .free, none, some 1000, 1550⟩
      ∧ t.outputs.valve = .all false ∧ (t.load .l0).forced = true := by decide +kernel

/-- The link loss of the worked sequences: bay 1 loses its records and its holding, and LINK is raised. -/
theorem test_link_loss :
    let t := after (.breakDetected (.bp .b1)) (online.setPort (.bp .b1) { online.port (.bp .b1) with linkUp := true })
    t.list .b1 = [] ∧ t.steam.manifold = .purge ∧ (t.runner .b1).causes.closure = true
      ∧ (t.notice .sp).flags = 0x08 := by decide +kernel

/-- R1: the header 31h of a reply goes out as start 0, 1000 1100 from the low bit on, marker 1, stop 1. -/
theorem test_header_levels :
    (List.range 11).map (fun n => ({ PortState.reset with tx := some ⟨0x31, .ok, []⟩, txLeft := 440 - n * 10 }).txLevel)
      = [false, true, false, false, false, true, true, false, false, true, true] := by decide +kernel

/-- R8: a request that arrives while a reply is being sent waits, and is taken when that reply has ended. -/
theorem test_request_waits : let s := after (.noteRead .sp []) online
    (s.port .sp).buffer = [] ∧ ((after (.noteRead .sp [0]) s).port .sp).buffer = [.request 0x38 [0]]
      ∧ replyOn .sp (after (.noteRead .sp [0]) s) = some (.ok, [0, 0x1F])
      ∧ replyOn .sp (afterAll [.noteRead .sp [0], .replyEnd .sp] s) = some (.args, []) := by decide +kernel

/-- R195: while RESETN is low the compressor output is low and TX and ATTN are high, and the plant starts at the rise. -/
theorem test_reset_levels : let s := after (.powerOnReset .falls) online
    (online.pinLevels.comp, s.pinLevels.comp, s.pinLevels.tx.get .sp, s.pinLevels.attn.get .sp) = (true, false, true, true)
      ∧ (after (.headerReceived .sp 0x31) s) = s ∧ (after (.powerOnReset (.rises true)) s).fast = true := by decide +kernel

/-- R195: a power-up holds the outputs, RESETN's rise before the supply is valid does not end it, and one after it does. -/
theorem test_power_up : let up := after (.powerOnReset .powersUp) online
    let valid := afterAll [.powerOnReset (.rises true), .powerOnReset .supplyValid] up
    (up.held, (after (.powerOnReset (.rises true)) up).held, valid.held) = (true, true, true)
      ∧ afterAll [.powerOnReset .falls, .powerOnReset (.rises true)] valid
        = .afterReset { State.reset.part.pins with ratesel := true } [] := by decide +kernel

/-- R195: an open trip wire reads active and an open probe dry: after 20 ms OVP trips, and PROBE_LO stays DRY. -/
theorem test_open_inputs :
    let s := { State.reset.part with pins := { Pins.reset with probeLo := .open, trips := { Pins.reset.trips with ovp := .open } } }
    let t := ((List.range 20).foldl (fun (s : State) _ => s.tick) ⟨s, []⟩)
    t.pending = [.tripInputChange .ovp true] ∧ (after (.tripInputChange .ovp true) t.part).pins.trips.ovp = .open
      ∧ t.part.clocks.loRun = 0 := by decide +kernel

/-- R87: at a duty of 1000 HEAT1 is on before, at and after the start of a period, and at 999 it is off for the last 2 ms. -/
theorem test_full_duty_has_no_gap :
    let at_ (n : Nat) (duty : Nat) : Part := { online with
      table := { online.table with
        heat := online.table.heat.set (.bay .b1) ⟨n, 2 * duty⟩
        loads := online.table.loads.set (.bay .b1) { LoadEntry.reset 600 4 with duty := duty } } }
    let t := State.tick ⟨at_ 1999 1000, []⟩
    let heat1 (s : Part) : Bool := s.pinLevels.heat.get (.bay .b1)
    t.pending = [.heaterPeriodStart (.bay .b1)]
      ∧ (heat1 (at_ 1999 1000), heat1 t.part, heat1 (after (.heaterPeriodStart (.bay .b1)) t.part)) = (true, true, true)
      ∧ (heat1 (at_ 1997 999), heat1 (at_ 1998 999), heat1 (at_ 2000 999)) = (true, false, false) := by decide +kernel

/-- R184: CFG_READ of the live class after reset gives the defaults, 3,450 W first (0D7Ah). -/
theorem test_default_settings : replyOn .sp (after (.cfgRead .sp [0]) State.reset.part)
    = some (.ok, [0x7A, 0x0D, 150, 0, 8, 0, 4, 0, 4, 0, 4, 0, 4, 0, 15, 0, 1, 0, 2, 0, 0x2C, 1, 120, 0, 0xB0, 4, 0xB6, 3,
        0x58, 2, 40, 0, 8, 0, 120, 0]) := by decide +kernel

/-- Section 10.3: ONLINE 02h, READY 03h, OPEN 02h with holder 01h, and by hand MANUAL 04h, MANUAL 06h, OPEN 02h with 81h. -/
theorem test_codes_of_the_plant :
    replyOn .sp (after (.plantQuery .sp []) online) = some (.ok, [2, 3, 0, 0xAB, 4, 0xE6, 0, 2, 1, 1, 2, 0, 0, 0, 1, 1, 3, 0, 0, 0,
        0, 0, 0, 0, 0, 0, 0, 0])
      ∧ (replyOn .sp (after (.plantQuery .sp []) byHand)).map (fun r => (r.2.take 2, (r.2.drop 7).take 2))
        = some ([4, 6], [2, 0x81]) := by decide +kernel

/-- Section 10.3: a REST record, 04h, that ends NOT_RUN, 05h; and a REFRESH record, 03h, in BURST, 01h, of a RUNNING runner,
01h, with a STEAM demand, 01h. -/
theorem test_codes_of_records :
    let ended : Part := { resting with store := resting.store.set .b4 ⟨[rec_ 9 (.rest 60) (.done .notRun)], 8⟩ }
    (replyOn (.bp .b4) (after (.collect (.bp .b4) []) ended)).map (fun r => r.2.take 4) = some [9, 4, 1, 5]
      ∧ (replyOn .sp (after (.bayQuery .sp [2]) online)).map (fun r => (r.2.take 4, (r.2.drop 11).take 3))
        = some ([1, 0, 0x11, 1], [1, 3, 1]) := by decide +kernel

/-- R128, R194: bay 1 holds, 10h, beside an OPEN manifold, 02h, and bay 2 waits in the first place with 0 beside it. -/
theorem test_state_of_the_holder :
    (replyOn .sp (after (.bayQuery .sp [1]) online)).map (fun r => (r.2.drop 35).take 2) = some [0x10, 2]
      ∧ (replyOn .sp (after (.bayQuery .sp [2]) online)).map (fun r => (r.2.drop 35).take 2) = some [1, 0] := by
  decide +kernel

/-- Section 10.3: an air sensor fault of bay 3, 09h, recorded in MANUAL_PENDING, 03h. -/
theorem test_codes_of_the_first_fault :
    let trips := { online.trips with first := some ⟨.airSensor .b3, 258, .manualPending, -20, 230⟩, faultCount := 1 }
    replyOn .sp (after (.faultClear .sp []) { online with trips := trips })
      = some (.ok, [1, 9, 3, 2, 1, 0, 0, 3, 0xEC, 0xFF, 0xE6, 0, 1, 0]) := by decide +kernel

/-- With no command waiting a millisecond passes: the off timer of the reset state has 179,999 ms left. -/
theorem test_idle_step : (State.reset.tick).part.comp.offTimer = .running 179999 := by decide +kernel

/-! ## Witnesses: states and operands that meet the hypotheses of the statements

Each theorem is named after its statement and goes through its clauses in order. -/

/-- A state with this part and no command waiting. -/
def st (s : Part) : State := ⟨s, []⟩

def onPort (s : Part) (p : Port) (f : PortState → PortState) : Part := s.setPort p (f (s.port p))

/-- A reply in transmission. -/
def sending : Reply := ⟨0x31, .ok, []⟩

theorem witness_HeaderAndCharactersFillTheAssembly :
    let broken := onPort online .sp fun x => { x with inBreak := true }
    let fresh := onPort online .sp fun x => { x with rx := .assembling 0x41 none [] 0x41 }
    let filling := onPort online .sp fun x => { x with rx := .assembling 0x41 (some 24) (List.replicate 23 0) 0x59 }
    (broken.port .sp).inBreak = true ∧ (online.port .sp).inBreak = false ∧ (online.port .sp).rx = .idle
      ∧ ((fresh.port .sp).inBreak = false ∧ (fresh.port .sp).rx = .assembling 0x41 none [] 0x41 ∧ (24 : Byte).toNat ≤ 24)
      ∧ (filling.port .sp).rx = .assembling 0x41 (some 24) (List.replicate 23 0) 0x59
      ∧ (List.replicate 23 (0 : Byte)).length < 24 := by decide +kernel

/-- A message that has received its one argument and waits for its check byte. -/
def assembled (x : PortState) : PortState := { x with rx := .assembling 0x41 (some 1) [0x11] 0x53 }

theorem witness_FaultyMessagesBecomeFrameEntries :
    let s := onPort online .sp assembled
    let fresh := onPort online .sp fun x => { x with rx := .assembling 0x41 none [] 0x41 }
    (s.port .sp).Law ∧ (fresh.port .sp).Law ∧ (s.port .sp).Discards .sp 0x41 (.gapTimeout .sp)
      ∧ (s.port .sp).Discards .sp 0x41 (.characterFramingError .sp)
      ∧ (fresh.port .sp).Discards .sp 0x41 (.lengthAbove24 .sp 25)
      ∧ (s.port .sp).Discards .sp 0x41 (.messageComplete .sp 0xAC) ∧ (online.port .sp).rx = .idle :=
  ⟨portOk_sound (by decide +kernel), portOk_sound (by decide +kernel), ⟨rfl, _, _, _, rfl, .inl rfl⟩,
    ⟨rfl, _, _, _, rfl, .inr (.inl rfl)⟩, ⟨rfl, _, _, _, rfl, .inr (.inr (.inl ⟨25, rfl, by decide, rfl⟩))⟩,
    ⟨rfl, _, _, _, rfl, .inr (.inr (.inr ⟨1, 0xAC, rfl, rfl, rfl, by decide⟩))⟩, rfl⟩

theorem unassigned_60 : unassigned 0x60 := fun r => by cases r <;> decide

theorem witness_PassingMessagesBecomeRequests :
    let s := onPort online .sp assembled
    let busy := onPort s .sp fun x => { x with tx := some sending }
    let full := onPort busy .sp fun x => { x with buffer := [.frame 0x41, .frame 0x41] }
    let other := onPort online .sp fun x => { x with rx := .assembling 0x60 (some 1) [0x11] 0x72 }
    let short := onPort online .sp fun x => { x with rx := .assembling 0x45 (some 1) [0x11] 0x57 }
    let bay := onPort online (.bp .b1) fun x => { x with rx := .assembling 0x45 (some 1) [0x11] 0x57 }
    ((s.port .sp).Law ∧ (busy.port .sp).Law ∧ (full.port .sp).Law ∧ (other.port .sp).Law)
      ∧ ((s.port .sp).inBreak = false ∧ (s.port .sp).rx = .assembling 0x41 (some 1) [0x11] 0x53
        ∧ (0x53 : Byte) + 0xAD = 0)
      ∧ 2 ≤ (full.port .sp).buffer.length ∧ ((busy.port .sp).buffer.length < 2 ∧ (busy.port .sp).tx.isSome = true)
      ∧ ((other.port .sp).tx = none ∧ (0x72 : Byte) + 0x8E = 0 ∧ unassigned 0x60)
      ∧ (s.port .sp).tx = none ∧ requestOf (.plantStart .sp [0x11]) = some (.sp, .plantStart, [0x11])
      ∧ Request.plantStart.code = 0x41
      ∧ ((short.port .sp).Law ∧ (short.port .sp).tx = none ∧ (0x57 : Byte) + 0xA9 = 0 ∧ noDrive [0x11])
      ∧ (bay.port (.bp .b1)).Law ∧ (bay.port (.bp .b1)).tx = none :=
  ⟨⟨portOk_sound (by decide +kernel), portOk_sound (by decide +kernel), portOk_sound (by decide +kernel),
    portOk_sound (by decide +kernel)⟩, ⟨rfl, rfl, rfl⟩, by decide, ⟨by decide, rfl⟩, ⟨rfl, rfl, unassigned_60⟩, rfl, rfl,
    rfl, ⟨portOk_sound (by decide +kernel), rfl, rfl, .inl (by decide)⟩, portOk_sound (by decide +kernel), rfl⟩

theorem witness_AMessageSentIsTheRequestTaken :
    let s := onPort online (.bp .b1) fun x => { x with linkUp := true }
    requestOf (.collect (.bp .b1) (List.replicate 24 0)) = some (.bp .b1, .collect, List.replicate 24 0)
      ∧ (List.replicate 24 (0 : Byte)).length ≤ 24 ∧ (s.port (.bp .b1)).rx = .idle
      ∧ (s.port (.bp .b1)).inBreak = false ∧ (s.port (.bp .b1)).linkUp = true ∧ (s.port (.bp .b1)).buffer = []
      ∧ (s.port (.bp .b1)).tx = none :=
  ⟨rfl, by decide, rfl, rfl, rfl, rfl, rfl⟩

theorem witness_BreakEndsTheLink :
    let up := onPort online (.bp .b1) fun x => { x with linkUp := true }
    (online.port (.bp .b1)).linkUp = false ∧ (up.port (.bp .b1)).linkUp = true ∧ up.ServiceLaw
      ∧ byHand.mode = .manual ∧ byHand.ServiceLaw :=
  ⟨rfl, rfl, serviceOk_sound (by decide +kernel), rfl, byHand_service⟩

theorem witness_AReplyEndTakesTheNextEntry :
    let busy (q : List Entry) := onPort online .sp fun x => { x with tx := some sending, buffer := q }
    let bay := onPort online (.bp .b1) fun x => { x with tx := some sending, buffer := [.request 0x45 []] }
    (online.port .sp).tx = none ∧ ((busy []).port .sp).tx.isSome = true
      ∧ ((busy [.frame 0x41]).port .sp).buffer = .frame 0x41 :: []
      ∧ (((busy [.request 0x60 []]).port .sp).buffer = .request 0x60 [] :: [] ∧ unassigned 0x60)
      ∧ requestOf (.plantQuery .sp []) = some (.sp, .plantQuery, [])
      ∧ ((busy [.request 0x32 [], .frame 0]).port .sp).buffer = .request Request.plantQuery.code [] :: [.frame 0]
      ∧ (((busy [.request 0x45 [0x18, 2, 0]]).port .sp).buffer = .request 0x45 [0x18, 2, 0] :: []
        ∧ noDrive [0x18, 2, 0] ∧ noDrive [0x06, 0, 0] ∧ noDrive [0x01, 0])
      ∧ ((busy [.frame 0, .frame 0]).port .sp).tx.isSome = true
      ∧ ((bay.port (.bp .b1)).tx.isSome = true ∧ (bay.port (.bp .b1)).buffer = .request 0x45 [] :: [] ∧ noDrive [])
      ∧ ¬ (online.pins.resetn = false ∨ online.pins.supply = false ∨ online.started = false)
      ∧ (after (.powerOnReset .falls) online).started = false :=
  ⟨rfl, rfl, rfl, ⟨rfl, unassigned_60⟩, rfl, rfl, ⟨rfl, .inr ⟨_, _, _, rfl, .inr (by decide)⟩,
    .inr ⟨_, _, _, rfl, .inl (by decide)⟩, .inl (by decide)⟩, rfl, ⟨rfl, rfl, .inl (by decide)⟩, by decide +kernel, rfl⟩

theorem witness_RefusedRequestsHaveNoEffect :
    requestOf (.append .sp []) = some (.sp, .append, []) ∧ requestOf (.faultClear (.bp .b1) []) =
        some (.bp .b1, .faultClear, [])
      ∧ requestOf (.collect (.bp .b1) [0]) = some (.bp .b1, .collect, [0])
      ∧ requestOf (.withdraw (.bp .b1) []) = some (.bp .b1, .withdraw, [])
      ∧ requestOf (.plantHalt .sp [0]) = some (.sp, .plantHalt, [0])
      ∧ requestOf (.cntRead .sp [0, 0]) = some (.sp, .cntRead, [0, 0])
      ∧ requestOf (.cfgLive .sp []) = some (.sp, .cfgLive, [])
      ∧ requestOf (.cfgStage .sp [1, 2]) = some (.sp, .cfgStage, [1, 2])
      ∧ (online.port .sp).tx = none ∧ (online.port (.bp .b1)).tx = none :=
  ⟨rfl, rfl, rfl, rfl, rfl, rfl, rfl, rfl, rfl, rfl⟩

theorem witness_RepliesSumToZero :
    requestOf (.manDriveCompOn .sp) = some (.sp, .manDrive, [0x18, 1, 0]) ∧ (online.port .sp).tx = none
      ∧ Reply.characters ⟨0x45, .state, []⟩ = [(true, 0x45), (false, 0x04), (false, 0x00), (false, 0xB7)] := by decide +kernel

theorem witness_AppendAddsAPendingRecord :
    let twenty : BayList := ⟨(List.range 20).map fun n => rec_ (byteOf n) (.rest 5) .pending, 20⟩
    let full := { online with store := online.store.set .b1 twenty }
    appendBody [4, 0, 0, 0, 0] = none ∧ appendBody [4, 0, 1, 0] = some ((false, false), .rest 1, 0)
      ∧ (online.port (.bp .b1)).tx = none ∧ (full.port (.bp .b1)).tx = none ∧ 20 ≤ (full.list .b1).length ∧ online.slotsUsed < 48 ∧ (online.list .b1).length < 20 := by decide +kernel

theorem witness_AppendReadsItsArguments :
    (0x04 : Byte) &&& 0xFC ≠ 0 ∧ (0x05 : Byte) ∉ ([0x01, 0x02, 0x03, 0x04] : List Byte)
      ∧ (List.replicate 5 (0 : Byte)).length ≠ 4 ∧ (List.replicate 8 (0 : Byte)).length ≠ 9
      ∧ (List.replicate 3 (0 : Byte)).length ≠ 2 ∧ ([1] : List Byte).length < 2 ∧ (0x03 : Byte) &&& 0xFC = 0 := by decide

theorem witness_WithdrawAndCollectRemoveARecord :
    (∀ r ∈ online.list .b1, ¬ (r.tag = 2 ∧ r.isPending = true)) ∧ online.StoreLaw
      ∧ online.list .b1 = [rec_ 1 (.rest 5) (.done .complete),
          rec_ 2 (.steam 10 600 9990) (.current ⟨.burst, 0, 0, 3599, 0⟩)] ++ rec_ 3 (.rest 60) .pending :: []
      ∧ (rec_ 3 (.rest 60) .pending).isPending = true ∧ (∀ r ∈ (online.list .b2).head?, r.isDone = false)
      ∧ (rec_ 1 (.rest 5) (.done .complete)).phase = .done .complete ∧ (online.port (.bp .b1)).tx = none
      ∧ (online.port (.bp .b2)).tx = none :=
  ⟨by decide +kernel, online_service.store, rfl, rfl, by decide +kernel, rfl, rfl, rfl⟩

theorem witness_RunStartTakesTheFirstRecord : resting.ServiceLaw ∧ (∀ b, (resting.port (.bp b)).tx = none) ∧ (resting.runner .b4).state = .idle
    ∧ 0 < countPending (resting.list .b4) ∧ (resting.runner .b1).state ≠ .idle
    ∧ countPending (resting.list .b2) = 0 :=
  ⟨resting_service, fun b => by cases b <;> rfl, by decide +kernel⟩

/-- Every place of a join: behind the bay that waits for an OPEN manifold; granted a FREE one, waking a KEEPWARM boiler; a
holder of air; and in the air queue at the capacity. -/
theorem witness_RunStartJoinsTheTail :
    let starts (body : Body) (s : Part) : Part := { s with
      store := s.store.set .b4 ⟨[rec_ 7 body .pending], 8⟩
      runners := s.runners.set .b4 ⟨.idle, ⟨false, false, false⟩, true, .none, 0, false⟩ }
    let steam := starts (.steam 10 600 0) online
    let warm := { resting with boiler := { resting.boiler with state := .keepwarm } }
    let dry := starts (.dry 500 900 0) online
    let full := { dry with live := { dry.live with capacity := 1 } }
    let t (s : Part) : Part := after (.runStart (.bp .b4) []) s
    (steam.ServiceLaw ∧ warm.ServiceLaw ∧ warm.ArmingLaw ∧ dry.ServiceLaw ∧ full.ServiceLaw)
      ∧ (∀ s ∈ [steam, warm, dry, full], (s.port (.bp .b4)).tx = none ∧ (s.runner .b4).causes.empty = true
        ∧ (s.runner .b4).state = .idle ∧ 0 < countPending (s.list .b4))
      ∧ (t steam).steam.queue = [.b2, .b4]
      ∧ (t warm).steam = ⟨[], .auto .b4, .stalled, some 15000, none, 1550⟩ ∧ (t warm).boiler.state = .heating
      ∧ (t dry).air.holders = [⟨.b3, 1000, 300⟩, ⟨.b4, 0, 300⟩] ∧ (t full).air.queue = [.b4] :=
  ⟨⟨serviceOk_sound (by decide +kernel), serviceOk_sound (by decide +kernel), armingOk_sound (by decide +kernel),
    serviceOk_sound (by decide +kernel), serviceOk_sound (by decide +kernel)⟩, by decide +kernel⟩

/-- Bay 1 of `resting` HELD with no record left. -/
def heldEmpty : Part := { resting with store := resting.store.set .b1 ⟨[], 3⟩ }

theorem witness_RunPauseAndResume :
    (resting.ServiceLaw ∧ (resting.runner .b2).state = .idle ∧ (resting.runner .b1).state = .held
        ∧ (resting.port (.bp .b2)).tx = none ∧ (resting.port (.bp .b1)).tx = none ∧ 0 < countPending (resting.list .b1))
      ∧ (online.ServiceLaw ∧ (online.runner .b1).state = .running ∧ (online.runner .b4).state = .paused
        ∧ (online.runner .b4).causes.request = true
        ∧ (online.port (.bp .b1)).tx = none ∧ (online.port (.bp .b4)).tx = none)
      ∧ heldEmpty.ServiceLaw ∧ (heldEmpty.port (.bp .b1)).tx = none ∧ (heldEmpty.runner .b1).state = .held ∧ countPending (heldEmpty.list .b1) = 0 :=
  ⟨⟨resting_service, by decide +kernel⟩, ⟨online_service, by decide +kernel⟩, serviceOk_sound (by decide +kernel),
    by decide +kernel⟩

theorem witness_RunFinishCutsTheCurrentRecord : online.ServiceLaw ∧ (online.port (.bp .b1)).tx = none
    ∧ (∀ r ∈ online.list .b1, r.isCurrent = true → r.tag ≠ 3) ∧ (∃ r ∈ online.list .b1, r.isCurrent = true ∧ r.tag = 2) :=
  ⟨online_service, by decide +kernel⟩

theorem witness_AnAbortEndsTheProgramme :
    (resting.ServiceLaw ∧ (resting.runner .b2).state = .idle ∧ countPending (resting.list .b2) = 0
        ∧ (resting.port .sp).tx = none ∧ (resting.port (.bp .b2)).tx = none)
      ∧ (online.ServiceLaw ∧ (online.port .sp).tx = none ∧ (online.port (.bp .b1)).tx = none
        ∧ ¬ ((online.runner .b1).state = .idle ∧ countPending (online.list .b1) = 0))
      ∧ ¬ ((resting.runner .b1).state = .idle) ∧ ¬ (countPending (resting.list .b4) = 0) ∧ 4 < (5 : Byte).toNat :=
  ⟨⟨resting_service, by decide +kernel⟩, ⟨online_service, by decide +kernel⟩, by decide +kernel⟩

theorem witness_ClosureReportOpensAndShuts : online.ServiceLaw ∧ ((online.runner .b1).shut = true
    ∧ (online.port (.bp .b1)).tx = none ∧ (resting.port (.bp .b3)).tx = none) ∧ resting.ServiceLaw
    ∧ (resting.runner .b3).shut = false ∧ (2 : Byte) ≠ 0 ∧ (2 : Byte) ≠ 1
    ∧ byHand.ServiceLaw ∧ byHand.steam.holder = .manual .b1 ∧ (byHand.runner .b1).shut = true
    ∧ (byHand.port (.bp .b1)).tx = none
    ∧ (after (.closureReport (.bp .b1) [0]) byHand).steam = ⟨[], .none, .purge, none, some 1000, 1550⟩ :=
  ⟨online_service, by decide +kernel, resting_service, by decide +kernel, by decide, by decide, byHand_service,
    by decide +kernel⟩

theorem witness_ARestingRunnerSecondCountsPausesAlone : (resting.runner .b1).state = .held
    ∧ (resting.runner .b2).state = .idle ∧ (online.runner .b4).state = .paused := by decide +kernel

/-- `online` with bay `b` RUNNING this record alone. -/
def running (b : Bay) (r : Record) : Part := { online with store := online.store.set b ⟨[r], 9⟩ }

theorem witness_ARunningSecondIsAccounted :
    (online.ServiceLaw ∧ (online.runner .b1).state = .running
        ∧ online.current .b1 = some (rec_ 2 (.steam 10 600 9990) (.current ⟨.burst, 0, 0, 3599, 0⟩), ⟨.burst, 0, 0, 3599, 0⟩))
      ∧ ((online.runner .b2).state = .running
        ∧ online.current .b2 = some (rec_ 1 (.refresh 5 2 30 500 600 0 0 0) (.current ⟨.burst, 0, 0, 0, 0⟩), ⟨.burst, 0, 0, 0, 0⟩))
      ∧ (online.runner .b3).state = .running
      ∧ online.current .b3 = some (rec_ 1 (.dry 500 900 0) (.current ⟨.burst, 0, 0, 0, 0⟩), ⟨.burst, 0, 0, 0, 0⟩) :=
  ⟨⟨online_service, by decide +kernel⟩, by decide +kernel⟩

theorem witness_ARunningSecondEndsRecords :
    let w : Work := ⟨.burst, 0, 0, 0, 0⟩
    let airs : Work := ⟨.airing, 0, 29, 0, 0⟩
    let steam := { rec_ 1 (.steam 10 600 0) (.current w) with activeS := 599 }
    let dry (served active : Nat) := { rec_ 1 (.dry 500 900 0) (.current w) with servedS := served, activeS := active }
    let burst := { rec_ 1 (.refresh 5 2 30 500 600 0 0 0) (.current w) with activeS := 599 }
    let airing (done : Nat) := rec_ 1 (.refresh 5 2 30 500 600 0 done 0) (.current airs)
    (running .b1 steam).ServiceLaw ∧ (running .b3 (dry 899 899)).ServiceLaw ∧ (running .b3 (dry 800 1799)).ServiceLaw
      ∧ (running .b2 burst).ServiceLaw ∧ (running .b3 (airing 2)).ServiceLaw ∧ (running .b3 (airing 1)).ServiceLaw
      ∧ (running .b1 steam).current .b1 = some (steam, w) ∧ (running .b3 (airing 1)).current .b3 = some (airing 1, airs)
      ∧ (airing 1).airingLater airs ((running .b3 (airing 1)).secondServed .b3 (airing 1) airs) = 30
      ∧ (running .b3 { airing 1 with activeS := 599 }).ServiceLaw
      ∧ (after (.runnerSecond .b3) (running .b3 { airing 1 with activeS := 599 })).air.holders = [] :=
  ⟨serviceOk_sound (by decide +kernel), serviceOk_sound (by decide +kernel), serviceOk_sound (by decide +kernel),
    serviceOk_sound (by decide +kernel), serviceOk_sound (by decide +kernel), serviceOk_sound (by decide +kernel),
    by decide +kernel, by decide +kernel, by decide +kernel, serviceOk_sound (by decide +kernel), by decide +kernel⟩

/-- A RUNNING runner with a REST record, one second before its end. -/
theorem witness_ARunningSecondEndsRests :
    let r := { rec_ 7 (.rest 60) (.current ⟨.burst, 0, 0, 0, 0⟩) with activeS := 59 }
    let s := { resting with
      store := resting.store.set .b4 ⟨[r], 8⟩, runners := resting.runners.set .b4 (runs .none) }
    s.ServiceLaw ∧ s.current .b4 = some (r, ⟨.burst, 0, 0, 0, 0⟩) :=
  ⟨serviceOk_sound (by decide +kernel), by decide +kernel⟩

/-! ### Plant Supervision -/

theorem witness_BayQueryReportsTheBay : (online.port .sp).tx = none ∧ (online.port (.bp .b1)).tx = none
    ∧ 4 < (5 : Byte).toNat ∧ (0 : Byte).toNat = 0 := by decide +kernel

theorem witness_PlantQueryAndLedgerRead : (online.port .sp).tx = none ∧ (online.port (.bp .b1)).tx = none
    ∧ 2 < (3 : Byte).toNat := by decide +kernel

theorem witness_ConfigurationAndCounterReads :
    (online.port .sp).tx = none ∧ (∀ x ∈ ([4] : List Byte), ([4] : List Byte).length = 1 → 3 < x.toNat)
      ∧ (∀ g ∈ ([6] : List Byte), ([6] : List Byte).length = 1 → 5 < g.toNat) := by decide +kernel

theorem witness_NoticeRequestsActOnTheirPort :
    (online.port (.bp .b1)).tx = none ∧ ([0] : List Byte) ≠ [] ∧ ([] : List Byte).length ≠ 1
      ∧ (∃ x ∈ ([0x20] : List Byte), x &&& 0xE0 ≠ 0) ∧ (0x1F : Byte) &&& 0xE0 = 0 := by decide +kernel

theorem witness_OutputsFollowTheirOwnersAndTheTrips :
    let s := { online with table := { online.table with heat := online.table.heat.set .l0 ⟨1999, 2000⟩ } }
    s.outputs.heat.get .l0 = true ∧ (s.table.heat.get .l0).pos < (s.table.heat.get .l0).onTime
      ∧ (let t := (State.tick ⟨s, []⟩).part
         2000 ≤ (t.table.heat.get .l0).onTime ∧ ¬ (t.table.heat.get .l0).pos < (t.table.heat.get .l0).onTime)
      ∧ (s.load .l0).forced = false ∧ s.trips.brownSource = false ∧ s.trips.latches.any = false
      ∧ (s.pins.resetn = true ∧ s.pins.supply = true ∧ s.started = true)
      ∧ (after (.powerOnReset .falls) s).pins.resetn = false ∧ (after (.powerOnReset .powersUp) s).pins.supply = false
      ∧ (afterAll [.powerOnReset .powersUp, .powerOnReset .supplyValid] s).started = false := by decide +kernel

theorem witness_PlantStartStartsThePlant :
    (online.ServiceLaw ∧ online.mode ≠ .offline ∧ (online.port .sp).tx = none)
      ∧ ((latched State.reset.part).ServiceLaw ∧ (latched State.reset.part).mode = .offline
        ∧ (latched State.reset.part).trips.latches.any = true ∧ ((latched State.reset.part).port .sp).tx = none)
      ∧ State.reset.part.ServiceLaw ∧ State.reset.part.mode = .offline ∧ State.reset.part.trips.latches.any = false
      ∧ State.reset.part.boiler.state = .cold ∧ State.reset.part.boiler.hiWet = false
      ∧ (State.reset.part.port .sp).tx = none :=
  ⟨⟨online_service, by decide +kernel⟩, ⟨serviceOk_sound (by decide +kernel), by decide +kernel⟩, reset_service,
    by decide +kernel⟩

/-- A start with bays 1 and 2 waiting for steam and bay 3 for air. -/
theorem witness_PlantStartPlacesTheDemands :
    let s := afterAll [.plantHalt .sp [], .replyEnd .sp] online
    let t := after (.plantStart .sp []) s
    s.ServiceLaw ∧ s.mode = .offline ∧ s.trips.latches.any = false ∧ s.boiler.state = .cold
      ∧ (s.trips.inputs.get .loww).active = false ∧ (s.port .sp).tx = none
      ∧ t.steam.queue = [.b1, .b2] ∧ t.air.holders = [⟨.b3, 0, 300⟩] :=
  ⟨serviceOk_sound (by decide +kernel), by decide +kernel⟩

/-- `online` with bay 3's heater and L0 drawing, and a feed pulse in a refill. -/
def heated : Part :=
  let drawing (e : LoadEntry) : LoadEntry := { e with request := e.full / 2, grant := e.full / 2, duty := 500 }
  { online with
    table := { online.table with
      loads := (online.table.loads.set (.bay .b3) (drawing (online.load (.bay .b3)))).set .l0 (drawing (online.load .l0)) }
    boiler := { online.boiler with refill := true, strokes := 5, feed := some 100 } }

theorem witness_PlantHaltAndManualEnterWithdrawEveryGrant :
    (byHand.ServiceLaw ∧ byHand.steam.Law ∧ (byHand.port .sp).tx = none ∧ byHand.mode = .manual)
      ∧ (online.ServiceLaw ∧ online.steam.Law ∧ (online.port .sp).tx = none ∧ online.mode = .online
        ∧ (after (.manualEnter .sp []) online).steam.manifold = .purge)
      ∧ (resting.ServiceLaw ∧ resting.steam.Law ∧ (resting.port .sp).tx = none ∧ resting.mode = .online
        ∧ (after (.manualEnter .sp []) resting).steam.manifold = .free)
      ∧ (heated.HeatLaw ∧ heated.ServiceLaw ∧ heated.steam.Law ∧ (heated.port .sp).tx = none ∧ heated.mode = .online
        ∧ heated.boiler.state = .ready ∧ (heated.load (.bay .b3)).duty = 500) ∧ resting.HeatLaw :=
  ⟨⟨byHand_service, manifoldOk_sound (by decide +kernel), by decide +kernel⟩,
    ⟨online_service, manifoldOk_sound (by decide +kernel), by decide +kernel⟩,
    ⟨resting_service, manifoldOk_sound (by decide +kernel), by decide +kernel⟩,
    ⟨heatOk_sound (by decide +kernel), serviceOk_sound (by decide +kernel), manifoldOk_sound (by decide +kernel),
      by decide +kernel⟩, heatOk_sound (by decide +kernel)⟩

/-- MANUAL_PENDING behind a purge. -/
def entering : Part :=
  { State.reset.part with
    mode := .manualPending
    steam := { Steam.reset with manifold := .purge, purge := some 500 }
    boiler := { Boiler.reset with state := .ready } }

/-- Plant MANUAL with a duty for L0 that the live budget leaves without power, over an ACTIVE LOWW input. -/
def starved : Part :=
  { byHandClosed with
    live := { byHandClosed.live with budget := byHandClosed.live.standing }
    table := { byHandClosed.table with
      loads := byHandClosed.table.loads.set .l0 { byHandClosed.load .l0 with manual := some 500, request := 1200 } }
    trips := { byHandClosed.trips with inputs := byHandClosed.trips.inputs.set .loww ⟨true, 0⟩ } }

/-- The allocation on the staged set gives `starved` a duty for L0, so LOWW trips; where the staged set is the live one none
runs, and none trips. -/
theorem witness_PlantRestartOverLowWater :
    let c := starved.staged
    let live : Part := { starved with live := c, table := starved.table.weighted c }
    let kept : Part := { starved with staged := starved.live }
    (starved.ServiceLaw ∧ starved.steam.Law ∧ starved.CompressorLaw ∧ starved.TripLaw ∧ starved.LowwLaw)
      ∧ (starved.boiler.state = .manual ∧ (starved.trips.inputs.get .loww).active = true ∧ (starved.port .sp).tx = none
        ∧ starved.comp.running = false ∧ c.budget ≠ starved.live.budget
        ∧ 0 < (live.table.allocate (live.headroomWith starved.comp.running)).loads.l0.duty)
      ∧ (after (.plantRestart .sp []) starved).trips.latches.loww = true
      ∧ (kept.ServiceLaw ∧ kept.steam.Law ∧ kept.CompressorLaw ∧ kept.comp.running = false ∧ kept.staged = kept.live
        ∧ (kept.port .sp).tx = none) ∧ (after (.plantRestart .sp []) kept).trips.latches.loww = false :=
  ⟨⟨serviceOk_sound (by decide +kernel), manifoldOk_sound (by decide +kernel), compOk_sound (by decide +kernel),
      tripOk_sound (by decide +kernel), lowwOk_sound (by decide +kernel)⟩, by decide +kernel, by decide +kernel,
    ⟨serviceOk_sound (by decide +kernel), manifoldOk_sound (by decide +kernel), compOk_sound (by decide +kernel),
      by decide +kernel⟩, by decide +kernel⟩

theorem witness_PlantRestartEndsEveryProgramme :
    (online.ServiceLaw ∧ online.steam.Law ∧ online.CompressorLaw ∧ online.mode ≠ .offline
        ∧ online.mode ≠ .manualPending ∧ (online.port .sp).tx = none ∧ online.boiler.state ≠ .manual
        ∧ online.list .b1 ≠ [])
      ∧ (heated.ServiceLaw ∧ heated.steam.Law ∧ heated.CompressorLaw ∧ heated.HeatLaw ∧ (heated.port .sp).tx = none)
      ∧ (byHand.ServiceLaw ∧ byHand.steam.Law ∧ byHand.CompressorLaw ∧ byHand.mode = .manual
        ∧ (byHand.port .sp).tx = none ∧ (byHand.trips.inputs.get .loww).active = false)
      ∧ (State.reset.part.ServiceLaw ∧ State.reset.part.steam.Law ∧ State.reset.part.CompressorLaw
        ∧ State.reset.part.mode = .offline ∧ (State.reset.part.port .sp).tx = none
        ∧ State.reset.part.boiler.state = .cold)
      ∧ entering.ServiceLaw ∧ entering.steam.Law ∧ entering.CompressorLaw ∧ entering.mode = .manualPending
      ∧ (entering.port .sp).tx = none ∧ entering.boiler.state = .ready :=
  ⟨⟨online_service, manifoldOk_sound (by decide +kernel), compOk_sound (by decide +kernel), by decide +kernel⟩,
    ⟨serviceOk_sound (by decide +kernel), manifoldOk_sound (by decide +kernel), compOk_sound (by decide +kernel),
      heatOk_sound (by decide +kernel), by decide +kernel⟩,
    ⟨byHand_service, manifoldOk_sound (by decide +kernel), compOk_sound (by decide +kernel), by decide +kernel⟩,
    ⟨reset_service, manifoldOk_sound (by decide +kernel), compOk_sound (by decide +kernel), by decide +kernel⟩,
    serviceOk_sound (by decide +kernel), manifoldOk_sound (by decide +kernel), compOk_sound (by decide +kernel),
    by decide +kernel⟩

theorem witness_ManualExitTurnsEveryDriveOff :
    online.mode ≠ .manual ∧ byHand.mode = .manual ∧ byHand.steam.Law ∧ byHand.ServiceLaw ∧ byHand.boiler.state = .manual
      ∧ (online.port .sp).tx = none ∧ (byHand.port .sp).tx = none ∧ byHand.steam.holder = .manual .b1
      ∧ byHandClosed.steam.Law ∧ byHandClosed.ServiceLaw ∧ byHandClosed.mode = .manual
      ∧ byHandClosed.steam.holder = .none ∧ (byHandClosed.port .sp).tx = none :=
  ⟨by decide +kernel, by decide +kernel, manifoldOk_sound (by decide +kernel), byHand_service, by decide +kernel, rfl, rfl,
    rfl, manifoldOk_sound (by decide +kernel), serviceOk_sound (by decide +kernel), by decide +kernel⟩

theorem witness_HeaterAndFeedDrives :
    let driven (l : Load) (d : Nat) : LoadTable :=
      ({ byHandClosed.table with loads := byHandClosed.table.loads.set l { byHandClosed.load l with
          manual := some d, request := d * (byHandClosed.load l).full / 1000 } } : LoadTable).allocate
        (byHandClosed.headroomWith false)
    online.mode ≠ .manual ∧ byHand.mode = .manual ∧ (byHand.trips.inputs.get .loww).active = false
      ∧ ((low byHandClosed).mode = .manual ∧ ((low byHandClosed).trips.inputs.get .loww).active = true
        ∧ (low byHandClosed).boiler.state = .manual ∧ (driven (.bay .b1) 1000).loads.l0.duty = 0
        ∧ (driven .l0 0).loads.l0.duty = 0 ∧ ((low byHandClosed).port .sp).tx = none)
      ∧ byHand.boiler.state = .manual ∧ (latched byHandClosed).mode = .manual
      ∧ (latched byHandClosed).boiler.state = .locked ∧ (online.port .sp).tx = none ∧ (byHand.port .sp).tx = none
      ∧ ((latched byHandClosed).port .sp).tx = none := by decide +kernel

theorem witness_ValveDrives :
    online.mode ≠ .manual
      ∧ ((latched byHandClosed).mode = .manual ∧ (latched byHandClosed).trips.latches.any = true)
      ∧ (byHand.mode = .manual ∧ byHand.trips.latches.any = false ∧ byHand.steam.manifold = .open
        ∧ byHand.steam.holder = .manual .b1 ∧ byHand.steam.purge = none)
      ∧ (byHandClosed.mode = .manual ∧ byHandClosed.trips.latches.any = false ∧ byHandClosed.steam.manifold = .free
        ∧ byHandClosed.steam.purge = none)
      ∧ (byHandClosed.runner .b1).shut = true ∧ (byHandClosed.runner .b2).shut = false
      ∧ (online.port .sp).tx = none ∧ (byHand.port .sp).tx = none ∧ (byHandClosed.port .sp).tx = none
      ∧ ((latched byHandClosed).port .sp).tx = none := by decide +kernel

/-- A compressor drive over an ACTIVE LOWW input, with L0 at rest beside a drying bay. -/
theorem witness_CompressorDrivesOverLowWater :
    let drying : LoadEntry := { byHandClosed.load (.bay .b1) with manual := some 1000, request := 600 }
    let s := low { byHandClosed with
      table := { byHandClosed.table with loads := byHandClosed.table.loads.set (.bay .b1) drying } }
    s.mode = .manual ∧ (s.port .sp).tx = none ∧ (s.trips.inputs.get .loww).active = true ∧ s.boiler.state = .manual
      ∧ s.comp.running = false ∧ s.comp.offTimer = .expired ∧ (s.trips.inputs.get .cond).active = false
      ∧ s.trips.brownSource = false ∧ s.live.standing + s.table.pComp ≤ s.live.budget
      ∧ (s.table.allocate (s.headroomWith true)).loads.l0.duty = 0 := by decide +kernel

theorem witness_CompressorAndDamperDrives :
    let on (t : Timer) : Part := { byHand with comp := ⟨true, t, .stopped⟩ }
    let tight := { byHand with live := { byHand.live with budget := 1040 } }
    online.mode ≠ .manual ∧ ((on .expired).mode = .manual ∧ (on .expired).comp.running = true)
      ∧ ((brown byHand).comp.running = false ∧ (brown byHand).trips.brownSource = true)
      ∧ (tight.comp.running = false ∧ tight.trips.brownSource = false ∧ (tight.trips.inputs.get .cond).active = false
        ∧ ¬ (tight.live.standing + tight.table.pComp ≤ tight.live.budget))
      ∧ (byHand.comp.running = false ∧ byHand.comp.offTimer = .expired ∧ byHand.trips.brownSource = false
        ∧ (byHand.trips.inputs.get .cond).active = false ∧ (byHand.trips.inputs.get .loww).active = false
        ∧ byHand.live.standing + byHand.table.pComp ≤ byHand.live.budget)
      ∧ (on (.running 1)).comp.onTimer ≠ .expired ∧ (on .expired).comp.onTimer = .expired
      ∧ (online.port .sp).tx = none ∧ ∀ s ∈ [on .expired, on (.running 1), brown byHand, tight, byHand],
        s.mode = .manual ∧ (s.port .sp).tx = none := by decide +kernel

theorem witness_ConfigurationRequestsStoreTheirEntries :
    let one : List ConfigEntry := [⟨.capacity, 4, 0⟩]
    (8 < (List.replicate 9 (⟨.capacity, 4, 0⟩ : ConfigEntry)).length)
      ∧ ¬ (([⟨.capacity, 4, 0⟩, ⟨.capacity, 1, 0⟩] : List ConfigEntry).map ConfigEntry.param).Nodup
      ∧ (∃ e ∈ ([⟨.yield, 0, 8⟩] : List ConfigEntry), e.param ∈ Param.stagedList)
      ∧ (0x1A < (0x1B : Byte).toNat ∧ (0 : Byte).toNat = 0) ∧ ([⟨.capacity, 4, 0⟩, ⟨.yield, 0, 8⟩] : List ConfigEntry) = one ++ [⟨.yield, 0, 8⟩]
      ∧ one ≠ [] ∧ one.length ≤ 8 ∧ (one.map ConfigEntry.param).Nodup ∧ (¬ ∃ e ∈ one, e.param ∈ Param.stagedList)
      ∧ (online.port .sp).tx = none := by
  decide +kernel

/-- Two holders for a capacity of 2, bay 3 with the longer hold, and bay 2 waiting. -/
def crowded : Part := { online with air := ⟨[.b2], [⟨.b3, 1000, 300⟩, ⟨.b4, 500, 300⟩], .all false⟩ }

theorem witness_LiveChangesTakeEffectAtOnce :
    let slice : List ConfigEntry := [⟨.slice, 30, 0⟩]
    let weight : List ConfigEntry := [⟨.w0, 3, 0⟩]
    let budget : List ConfigEntry := [⟨.budget, 0xE8, 3⟩]
    let fewer : List ConfigEntry := [⟨.capacity, 1, 0⟩]
    let more : List ConfigEntry := [⟨.capacity, 3, 0⟩]
    let moreUnder : List ConfigEntry := [⟨.capacity, 3, 0⟩, ⟨.budget, 0xE8, 3⟩]
    let fewerAt : List ConfigEntry := [⟨.capacity, 1, 0⟩, ⟨.w0, 3, 0⟩]
    let enough : List ConfigEntry := [⟨.capacity, 2, 0⟩, ⟨.standing, 100, 0⟩]
    let roomy : Part := { crowded with live := { crowded.live with capacity := 3 } }
    (∀ es ∈ [slice, weight, budget, fewer, more, moreUnder, fewerAt, enough], es ≠ [] ∧ es.length ≤ 8 ∧ (es.map ConfigEntry.param).Nodup
        ∧ ∀ e ∈ es, e.param ∈ Param.liveList)
      ∧ (∀ l, (crowded.load l).weight = crowded.live.weight l) ∧ crowded.CompressorLaw
      ∧ (crowded.air.holders.map AirHolder.bay).Nodup ∧ crowded.DamperLaw
      ∧ ((crowded.port .sp).tx = none ∧ (crowded.trips.inputs.get .loww).active = false)
      ∧ (∀ es ∈ [slice, weight, budget], (crowded.live.after es).capacity = crowded.live.capacity)
      ∧ (Param.w0 ∈ weight.map ConfigEntry.param ∧ Param.budget ∈ budget.map ConfigEntry.param
        ∧ Param.budget ∉ slice.map ConfigEntry.param ∧ Param.budget ∉ weight.map ConfigEntry.param)
      ∧ (crowded.comp.running = true
        ∧ (crowded.live.after budget).budget < (crowded.live.after budget).standing + crowded.table.pComp)
      ∧ (∀ es ∈ [more, moreUnder], crowded.live.capacity < (crowded.live.after es).capacity)
      ∧ (∀ es ∈ [fewer, fewerAt], (crowded.live.after es).capacity < crowded.air.holders.length)
      ∧ ((roomy.live.after enough).capacity < roomy.live.capacity
        ∧ roomy.air.holders.length ≤ (roomy.live.after enough).capacity
        ∧ (after (.cfgLive .sp (ConfigEntry.args enough)) roomy).air = roomy.air)
      ∧ (roomy.CompressorLaw ∧ roomy.DamperLaw ∧ (roomy.port .sp).tx = none)
      ∧ (crowded.mode = .online ∧ crowded.boiler.state = .ready)
      ∧ ((low byHandClosed).boiler.state = .manual ∧ ((low byHandClosed).trips.inputs.get .loww).active = true
        ∧ (byHandClosed.live.after weight).capacity = byHandClosed.live.capacity
        ∧ ((byHandClosed.table.weighted (byHandClosed.live.after weight)).allocate 3300).loads.l0.duty = 0)
      ∧ (after (.cfgLive .sp (ConfigEntry.args fewer)) crowded).air = ⟨[.b4, .b2], [⟨.b3, 1000, 300⟩], .all false⟩ :=
  ⟨by decide +kernel, fun l => by cases l with | l0 => rfl | bay b => cases b <;> rfl, compOk_sound (by decide +kernel),
    by decide +kernel, dampOk_sound (by decide +kernel), by decide +kernel, by decide +kernel, by decide +kernel,
    by decide +kernel, by decide +kernel, by decide +kernel, by decide +kernel,
    ⟨compOk_sound (by decide +kernel), dampOk_sound (by decide +kernel), by decide +kernel⟩, by decide +kernel⟩

/-- Plant MANUAL with a request for L0 and no duty yet, over an ACTIVE LOWW input: the next allocation arms LOWW. -/
def waiting : Part :=
  low { byHandClosed with
    table := { byHandClosed.table with
      loads := byHandClosed.table.loads.set .l0 { byHandClosed.load .l0 with manual := some 500, request := 1200 } } }

/-- A latch whose source is INACTIVE, cleared over an ACTIVE LOWW input: to FILLING, to COLD, to MANUAL with L0 at rest, and to
MANUAL under BROWN with a request for L0. -/
theorem witness_FaultClearOverLowWater :
    let s := low (latched { resting with steam := Steam.reset })
    let offline := { s with mode := .offline }
    let manual := low (latched byHandClosed)
    let dark := brown { waiting with boiler := manual.boiler, trips := manual.trips }
    (s.TripLaw ∧ (s.port .sp).tx = none ∧ s.mode = .online ∧ s.boiler.hiWet = false)
      ∧ (offline.TripLaw ∧ (offline.port .sp).tx = none)
      ∧ (manual.TripLaw ∧ (manual.port .sp).tx = none ∧ manual.mode = .manual
        ∧ (manual.table.lifted false (manual.headroomWith false)).loads.l0.duty = 0)
      ∧ (dark.TripLaw ∧ (dark.port .sp).tx = none ∧ dark.mode = .manual ∧ dark.trips.brownSource = true
        ∧ 0 < (dark.load .l0).request ∧ (dark.table.lifted true (dark.headroomWith false)).loads.l0.duty = 0)
      ∧ ∀ t ∈ [s, offline, manual, dark], (t.trips.inputs.get .loww).active = true
        ∧ t.trips.latches = ⟨true, false, false, false, false⟩ ∧ (t.trips.inputs.get .ovp).active = false :=
  ⟨⟨tripOk_sound (by decide +kernel), by decide +kernel⟩, ⟨tripOk_sound (by decide +kernel), by decide +kernel⟩,
    ⟨tripOk_sound (by decide +kernel), by decide +kernel⟩, ⟨tripOk_sound (by decide +kernel), by decide +kernel⟩,
    by decide +kernel⟩

theorem witness_FaultClearReleasesTheLatches :
    let s := latched { resting with steam := Steam.reset }
    let held := { s with trips := { s.trips with inputs := s.trips.inputs.set .ovp ⟨true, 0⟩ } }
    let waiting := { s with steam := { Steam.reset with queue := [.b1] } }
    (s.TripLaw ∧ (s.trips.inputs.get .loww).active = false ∧ s.trips.latches.any = true
        ∧ (s.trips.inputs.get .ovp).active = false ∧ (s.runner .b1).state ≠ .idle ∧ (s.port .sp).tx = none)
      ∧ (held.TripLaw ∧ (held.trips.inputs.get .ovp).active = true ∧ (held.port .sp).tx = none)
      ∧ (waiting.port .sp).tx = none ∧ waiting.TripLaw ∧ waiting.steam.queue = .b1 :: [] ∧ waiting.steam.manifold = .free ∧ waiting.mode = .online :=
  ⟨⟨tripOk_sound (by decide +kernel), by decide +kernel⟩, ⟨tripOk_sound (by decide +kernel), by decide +kernel⟩, rfl,
    tripOk_sound (by decide +kernel), by decide +kernel⟩

theorem witness_LowwLatchesWhereItBecomesArmed :
    let filling := low { resting with boiler := { Boiler.reset with state := .filling } }
    let full (s : Part) : Part := { s with boiler := { s.boiler with hiWet := true } }
    let cleared := low (full (latched { resting with steam := Steam.reset }))
    let dry := low (latched { byHandClosed with
      table := { byHandClosed.table with
        loads := byHandClosed.table.loads.set .l0 { byHandClosed.load .l0 with manual := some 500, request := 1200 } } })
    (∀ s ∈ [filling, low (full State.reset.part), cleared, dry, low byHand], (s.port .sp).tx = none
        ∧ (s.trips.inputs.get .loww).active = true ∧ s.trips.armed = false)
      ∧ (filling.TripLaw ∧ filling.boiler.state = .filling ∧ filling.boiler.hiWet = false ∧ filling.mode ≠ .manual)
      ∧ ((low (full State.reset.part)).TripLaw ∧ (full State.reset.part).mode = .offline
        ∧ State.reset.part.trips.latches.any = false)
      ∧ (cleared.TripLaw ∧ cleared.mode = .online ∧ cleared.trips.latches = ⟨true, false, false, false, false⟩
        ∧ (cleared.trips.inputs.get .ovp).active = false ∧ cleared.boiler.hiWet = true)
      ∧ (dry.TripLaw ∧ dry.mode = .manual ∧ dry.trips.latches = ⟨true, false, false, false, false⟩
        ∧ 0 < (dry.table.lifted dry.trips.brownSource (dry.headroomWith dry.comp.running)).loads.l0.duty)
      ∧ (low byHand).TripLaw ∧ byHand.mode = .manual ∧ byHand.boiler.state = .manual
      ∧ 0 < (({ byHand.table with loads := byHand.table.loads.set .l0 { byHand.load .l0 with
          manual := some 500, request := 500 * 2400 / 1000 } } : LoadTable).allocate (byHand.headroomWith false)).loads.l0.duty :=
  ⟨by decide +kernel, ⟨tripOk_sound (by decide +kernel), by decide +kernel⟩,
    ⟨tripOk_sound (by decide +kernel), by decide +kernel⟩, ⟨tripOk_sound (by decide +kernel), by decide +kernel⟩,
    ⟨tripOk_sound (by decide +kernel), by decide +kernel⟩, tripOk_sound (by decide +kernel), by decide +kernel⟩

theorem witness_LowwLatchesWhereAnAllocationArmsIt :
    let running := { waiting with comp := ⟨true, .expired, .stopped⟩ }
    let linked := waiting.setPort (.bp .b1) { waiting.port (.bp .b1) with linkUp := true }
    let dark := brown waiting
    let weight : List ConfigEntry := [⟨.w0, 3, 0⟩]
    let budget : List ConfigEntry := [⟨.budget, 0xE8, 3⟩]
    (∀ s ∈ [waiting, running, linked, dark], (s.port .sp).tx = none ∧ (s.trips.inputs.get .loww).active = true
        ∧ s.trips.armed = false ∧ s.mode = .manual ∧ s.boiler.state = .manual)
      ∧ (waiting.TripLaw ∧ waiting.comp.running = false ∧ (waiting.trips.inputs.get .cond).active = false
        ∧ waiting.trips.brownSource = false ∧ waiting.comp.offTimer = .expired
        ∧ waiting.live.standing + waiting.table.pComp ≤ waiting.live.budget
        ∧ 0 < (waiting.table.allocate (waiting.headroomWith true)).loads.l0.duty)
      ∧ (running.TripLaw ∧ 0 < (running.table.allocate (running.headroomWith false)).loads.l0.duty)
      ∧ (∀ es ∈ [weight, budget], es ≠ [] ∧ es.length ≤ 8 ∧ (es.map ConfigEntry.param).Nodup
        ∧ ∀ e ∈ es, e.param ∈ Param.liveList)
      ∧ (0 < ((waiting.table.weighted (waiting.live.after weight)).allocate 3300).loads.l0.duty
        ∧ (running.live.after budget).budget < (running.live.after budget).standing + running.table.pComp
        ∧ 0 < ((running.table.weighted (running.live.after budget)).allocate 850).loads.l0.duty)
      ∧ (meanVolts [210000] = 210 ∧ waiting.trips.lowAfter 210 = 0
        ∧ 0 < ((waiting.table.atVolts 210).allocate (waiting.headroomWith false)).loads.l0.duty)
      ∧ (dark.TripLaw ∧ dark.trips.brownSource = true ∧ 5 ≤ dark.trips.highAfter 210
        ∧ 0 < (dark.table.unbrowned false 210 (dark.headroomWith false)).loads.l0.duty)
      ∧ linked.TripLaw ∧ linked.ServiceLaw ∧ (linked.port (.bp .b1)).linkUp = true
      ∧ 0 < ((linked.table.driven (.bay .b1) 0).allocate (linked.headroomWith false)).loads.l0.duty :=
  ⟨by decide +kernel, ⟨tripOk_sound (by decide +kernel), by decide +kernel⟩,
    ⟨tripOk_sound (by decide +kernel), by decide +kernel⟩, by decide +kernel, by decide +kernel, by decide +kernel,
    ⟨tripOk_sound (by decide +kernel), by decide +kernel⟩, tripOk_sound (by decide +kernel),
    serviceOk_sound (by decide +kernel), by decide +kernel⟩

/-! ### The Power Allocator and the boiler -/

theorem witness_AllocationSetsAsideAndFits :
    sharing.takesPart (.bay .b4) = false ∧ ({ LoadEntry.reset 600 4 with request := 5, forced := true }).forced = true
      ∧ sharing.demanded ≤ 3115 ∧ sharing.takesPart .l0 = true ∧ 3114 < sharing.demanded
      ∧ (∀ l, LoadTable.reset.takesPart l = false) :=
  ⟨by decide +kernel, rfl, by decide +kernel, by decide +kernel, by decide +kernel,
    fun l => by cases l with | l0 => rfl | bay b => cases b <;> rfl⟩

theorem witness_AllocationSharesByWeight : (∀ l, 0 < (sharing.loads.get l).weight) ∧ 3114 < sharing.demanded :=
  ⟨fun l => by cases l with | l0 => decide | bay b => cases b <;> decide, by decide +kernel⟩

theorem witness_AllocatorSecondRenewsTheFullPowers :
    let volts : List Nat := List.replicate 100 189999
    volts ≠ [] ∧ online.boiler.state ≠ .manual ∧ meanVolts volts = 189
      ∧ ¬ (online.trips.brownSource = false ∧ 3 ≤ online.trips.lowAfter 189)
      ∧ ¬ (online.trips.brownSource = true ∧ 5 ≤ online.trips.highAfter 189) := by decide +kernel

theorem witness_BrownoutForcesAndReleases :
    let sagging := { online with trips := { online.trips with lowRun := 2 } }
    let holding := { online with air := ⟨[], [⟨.b3, 1000, 300⟩], .all false⟩ }
    (sagging.CompressorLaw ∧ sagging.TripLaw
        ∧ sagging.trips.brownSource = false ∧ 3 ≤ sagging.trips.lowAfter (meanVolts [189999]))
      ∧ ((brown byHand).mode = .manual ∧ (byHand.load .l0).forced = false)
      ∧ ((brown holding).CompressorLaw ∧ (brown holding).TripLaw ∧ (brown holding).trips.brownSource = true
        ∧ 5 ≤ (brown holding).trips.highAfter (meanVolts [200000]) ∧ (brown holding).boiler.state ≠ .manual)
      ∧ ((low (brown byHand)).TripLaw ∧ (low (brown byHand)).CompressorLaw ∧ (low (brown byHand)).boiler.state = .manual
        ∧ ((low (brown byHand)).trips.inputs.get .loww).active = true ∧ (low (brown byHand)).mode = .manual
        ∧ ((low (brown byHand)).table.unbrowned false 210 ((low (brown byHand)).headroomWith false)).loads.l0.duty = 0)
      ∧ ({ brown holding with trips := online.trips } : Part).startWaits ∧ (brown holding).comp.offTimer = .expired
      ∧ ¬ ({ brown resting with trips := online.trips } : Part).startWaits :=
  ⟨⟨compOk_sound (by decide +kernel), tripOk_sound (by decide +kernel), by decide +kernel⟩, by decide +kernel,
    ⟨compOk_sound (by decide +kernel), tripOk_sound (by decide +kernel), by decide +kernel⟩,
    ⟨tripOk_sound (by decide +kernel), compOk_sound (by decide +kernel), by decide +kernel⟩,
    ⟨by decide +kernel, by decide +kernel, by decide +kernel, .inr rfl, by decide +kernel⟩, rfl, fun h => h.1 rfl⟩

theorem witness_TimersAndProbesMoveTheirOwnState :
    let refilling := { online with boiler := { online.boiler with refill := true, hiWet := false } }
    let filling := { resting with boiler := { Boiler.reset with state := .filling } }
    online.boiler.loWet = true ∧ online.boiler.refill = false ∧ online.boiler.state = .ready
      ∧ (refilling.boiler.refill = true ∧ refilling.boiler.hiWet = false ∧ refilling.boiler.state ≠ .filling)
      ∧ filling.boiler.state = .filling ∧ filling.boiler.hiWet = false
      ∧ (filling.trips.inputs.get .loww).active = false := by decide +kernel

theorem witness_BoilerSecondMovesTheBoilerByTemperature :
    let ready (t : Int) := meanTenths [t]
    let idle := { resting with boiler := { online.boiler with idle := 599 } }
    let starting := { resting with mode := .starting }
    let stalled := { online with
      steam := ⟨[.b2], .auto .b1, .stalled, some 5000, none, 1550⟩, boiler := { online.boiler with state := .heating } }
    (online.TripLaw ∧ online.ArmingLaw ∧ online.boiler.strokes < online.live.strokeLimit ∧ online.trips.sensorSource = false)
      ∧ (ready (-20001) < -200 ∧ ready 180099 = 1800 ∧ 1800 < ready 180100)
      ∧ (starting.TripLaw ∧ starting.ArmingLaw ∧ starting.boiler.state = .heating ∧ starting.mode = .starting
        ∧ ready 118000 = (starting.live.tSet : Int) - 20 ∧ ready 117999 < (starting.live.tSet : Int) - 20)
      ∧ (stalled.TripLaw ∧ stalled.ArmingLaw ∧ stalled.mode = .online ∧ stalled.steam.manifold = .stalled ∧ stalled.steam.purge = none
        ∧ stalled.steam.holder = .auto .b1 ∧ (stalled.runner .b1).shut = true)
      ∧ (ready 111999 < (online.live.tSet : Int) - 80 ∧ ready 112000 = (online.live.tSet : Int) - 80)
      ∧ idle.TripLaw ∧ idle.ArmingLaw ∧ idle.boiler.state = .ready ∧ 0 < idle.live.keepDelay
      ∧ idle.live.keepDelay ≤ min 3600 (idle.boiler.idle + 1) ∧ idle.steam.queue = [] ∧ idle.steam.holder = .none :=
  ⟨⟨tripOk_sound (by decide +kernel), online_arming, by decide +kernel⟩, by decide +kernel,
    ⟨tripOk_sound (by decide +kernel), armingOk_sound (by decide +kernel), by decide +kernel⟩,
    ⟨tripOk_sound (by decide +kernel), armingOk_sound (by decide +kernel), by decide +kernel⟩,
    by decide +kernel, tripOk_sound (by decide +kernel), armingOk_sound (by decide +kernel), by decide +kernel⟩

/-- READY in a STARTING plant with a bay at the head of each queue: a SHUT closure's valve opens at once, an OPEN one's
does not. -/
theorem witness_BoilerSecondGrantsAtOnline :
    let starting (b : Bay) : Part := { resting with
      mode := .starting, steam := { Steam.reset with queue := [b] }, air := ⟨[.b2], [], .all false⟩ }
    let t (b : Bay) : Part := after (.boilerSecond [118000]) (starting b)
    (∀ b, (starting b).TripLaw ∧ (starting b).ArmingLaw)
      ∧ (∀ b ∈ [Bay.b1, .b3], (starting b).boiler.state = .heating ∧ (starting b).steam.manifold = .free
        ∧ (starting b).boiler.strokes < (starting b).live.strokeLimit)
      ∧ (t .b1).steam = ⟨[], .auto .b1, .open, some 15000, none, 1550⟩ ∧ (t .b1).mode = .online
      ∧ (t .b3).steam = ⟨[], .auto .b3, .stalled, some 15000, none, 1550⟩ ∧ (t .b1).air.holders = [⟨.b2, 0, 300⟩] :=
  ⟨fun b => ⟨tripOk_sound (by cases b <;> decide +kernel), armingOk_sound (by cases b <;> decide +kernel)⟩,
    by decide +kernel⟩

theorem witness_BoilerSecondDeliversAndAccounts :
    let t := after (.boilerSecond [119000]) online
    ([119000] : List Int) ≠ [] ∧ (t.mode ≠ .manual ∧ t.boiler.state = .ready) ∧ byHand.mode = .manual
      ∧ byHand.boiler.state = .manual ∧ ¬ (meanTenths [119000] < -200 ∨ 1800 < meanTenths [119000]) := by decide +kernel

theorem witness_BoilerSecondGivesFeedStrokes :
    let filling (n : Nat) := low { resting with boiler := { Boiler.reset with state := .filling, strokes := n } }
    let refilling := { online with boiler := { online.boiler with refill := true } }
    let drive := { byHand with boiler := { byHand.boiler with manualStrokes := 1 } }
    let tank (s : Part) : Part := { s with trips := { s.trips with inputs := s.trips.inputs.set .tank ⟨true, 0⟩ } }
    ((filling 119).boiler.state = .filling ∧ (filling 119).boiler.hiWet = false
        ∧ (filling 119).boiler.strokes < (filling 119).live.strokeLimit
        ∧ (filling 120).live.strokeLimit ≤ (filling 120).boiler.strokes
        ∧ ((filling 119).trips.inputs.get .tank).active = false ∧ ((filling 119).trips.inputs.get .loww).active = true)
      ∧ (refilling.boiler.state = .ready ∧ refilling.boiler.refill = true ∧ refilling.boiler.hiWet = true)
      ∧ ((tank (filling 0)).trips.inputs.get .tank).active = true
      ∧ ((filling 119).ArmingLaw ∧ (filling 120).ArmingLaw ∧ refilling.ArmingLaw ∧ (tank (filling 0)).ArmingLaw
        ∧ drive.ArmingLaw ∧ byHand.ArmingLaw)
      ∧ (drive.boiler.state = .manual ∧ 0 < drive.boiler.manualStrokes) ∧ byHand.boiler.manualStrokes = 0
      ∧ ¬ (meanTenths [20000] < -200 ∨ 1800 < meanTenths [20000])
      ∧ ((filling 119).TripLaw ∧ (filling 120).TripLaw ∧ refilling.TripLaw ∧ (tank (filling 0)).TripLaw ∧ drive.TripLaw)
      ∧ byHand.TripLaw :=
  ⟨by decide +kernel, by decide +kernel, by decide +kernel,
    ⟨armingOk_sound (by decide +kernel), armingOk_sound (by decide +kernel), armingOk_sound (by decide +kernel),
      armingOk_sound (by decide +kernel), armingOk_sound (by decide +kernel), armingOk_sound (by decide +kernel)⟩,
    by decide +kernel, by decide +kernel, by decide +kernel, ⟨tripOk_sound (by decide +kernel), tripOk_sound (by decide +kernel),
      tripOk_sound (by decide +kernel), tripOk_sound (by decide +kernel), tripOk_sound (by decide +kernel)⟩,
    tripOk_sound (by decide +kernel)⟩

/-! ### The manifold and Air Service -/

theorem witness_MeteringCreditsTheHolder :
    let w : Work := ⟨.burst, 0, 0, 3599, 0⟩
    let powered (mg : Nat) : Part := { running .b1 (rec_ 2 (.steam 10 600 mg) (.current w)) with
      table := { online.table with loads := online.table.loads.set .l0 { LoadEntry.reset 2400 8 with duty := 500 } } }
    let burst (mg : Nat) : Part := running .b1 (rec_ 2 (.refresh 5 2 30 500 600 0 0 0) (.current { w with burstMg := mg }))
    (resting.ServiceLaw ∧ resting.steam.manifold ≠ .open)
      ∧ ((powered 9482).ServiceLaw ∧ (powered 9482).steam.holder = .auto .b1
        ∧ (3599 + (500 * 2400 / 1000) * 1550) / 3600 = 517 ∧ 9482 + 517 < 10 * 1000)
      ∧ ((powered 9483).ServiceLaw ∧ 10 * 1000 ≤ 9483 + 517 ∧ 0 < (powered 9483).live.purgeGap)
      ∧ ((burst 4999).ServiceLaw ∧ (burst 4999).steam.manifold = .open) ∧ (burst 5000).ServiceLaw
      ∧ (burst 5000).current .b1 = some (rec_ 2 (.refresh 5 2 30 500 600 0 0 0) (.current { w with burstMg := 5000 }),
          { w with burstMg := 5000 }) :=
  ⟨⟨resting_service, by decide +kernel⟩, ⟨serviceOk_sound (by decide +kernel), by decide +kernel⟩,
    ⟨serviceOk_sound (by decide +kernel), by decide +kernel⟩, ⟨serviceOk_sound (by decide +kernel), by decide +kernel⟩,
    serviceOk_sound (by decide +kernel), by decide +kernel⟩

theorem witness_SliceExpiryRotatesTheManifold :
    let alone := { online with steam := { online.steam with queue := [] } }
    let gapless := { online with live := { online.live with purgeGap := 0 } }
    resting.steam.manifold ≠ .open
      ∧ (online.steam.manifold = .open ∧ online.steam.holder = .auto .b1 ∧ online.steam.slice.isSome = true
        ∧ online.steam.queue ≠ [] ∧ 0 < online.live.purgeGap ∧ online.steam.purge = none)
      ∧ alone.steam.queue = []
      ∧ gapless.live.purgeGap = 0 ∧ gapless.mode = .online ∧ gapless.trips.latches.any = false
      ∧ gapless.steam.queue.head? = some .b2 := by decide +kernel

theorem witness_PurgeEndFreesTheLine :
    let purging (q : List Bay) (s : Part) : Part := { s with steam := ⟨q, .none, .purge, none, some 1, 1550⟩ }
    let pending := purging [] { byHandClosed with mode := .manualPending }
    let stalled := { online with steam := ⟨[], .auto .b1, .stalled, some 5000, some 1, 1550⟩ }
    online.steam.purge = none
      ∧ ((purging [] online).steam.purge ≠ none ∧ (purging [] online).steam.manifold = .purge
        ∧ (purging [] online).steam.queue = [] ∧ (purging [] online).mode ≠ .manualPending)
      ∧ (pending.mode = .manualPending ∧ pending.comp.running = false ∧ pending.steam.manifold = .purge)
      ∧ ((purging [.b2] online).steam.queue.head? = some .b2 ∧ (purging [.b2] online).mode = .online
        ∧ (purging [.b2] online).trips.latches.any = false)
      ∧ (stalled.steam.manifold = .stalled ∧ stalled.steam.holder = .auto .b1)
      ∧ ({ Steam.reset with purge := some 1 } : Steam).manifold = .free := by decide +kernel

theorem witness_HoldExpiryRotatesTheHolders :
    let drying (b : Bay) (s : Part) : Part := { s with
      store := s.store.set b ⟨[rec_ 1 (.dry 500 900 0) (.current ⟨.burst, 0, 0, 0, 0⟩)], 2⟩
      runners := s.runners.set b (runs (.air 500)) }
    let waiting := { drying .b4 (drying .b2 online) with
      steam := { online.steam with queue := [] }, air := ⟨[.b4], [⟨.b3, 300000, 300⟩, ⟨.b2, 0, 300⟩], .all false⟩ }
    resting.comp.running = false ∧ (online.ServiceLaw ∧ online.comp.running = true ∧ online.air.queue = []
        ∧ (online.air.holders.map AirHolder.bay).filter (fun b => b ∈ [Bay.b3]) ≠ [])
      ∧ waiting.ServiceLaw ∧ waiting.DamperLaw ∧ waiting.air.queue ≠ [] ∧ waiting.comp.running = true
      ∧ (waiting.air.holders.map AirHolder.bay).filter (fun b => b ∈ [Bay.b3]) ≠ [] :=
  ⟨by decide +kernel, ⟨online_service, by decide +kernel⟩, serviceOk_sound (by decide +kernel),
    dampOk_sound (by decide +kernel), by decide +kernel⟩

theorem witness_CompressorTimersStartAndStop :
    let off (t : Timer) : Part := { online with comp := ⟨false, .stopped, t⟩ }
    let on (t : Timer) : Part := { resting with comp := ⟨true, t, .stopped⟩ }
    (online.boiler.state ≠ .manual ∧ resting.boiler.state ≠ .manual ∧ online.comp.running = true)
      ∧ ((off .expired).comp.running = false ∧ (off .expired).startWaits)
      ∧ (resting.comp.running = false ∧ ¬ (resting.startWaits ∧ resting.comp.offTimer = .expired))
      ∧ ((off (.running 0)).comp.offTimer = .running 0 ∧ (off (.running 0)).startWaits)
      ∧ ((on (.running 0)).comp.onTimer = .running 0 ∧ (on (.running 0)).mode = .online
        ∧ (on (.running 0)).air.holders = []) ∧ (on .expired).comp.onTimer = .expired
      ∧ online.comp.offTimer = .stopped ∧ online.air.holders ≠ [] :=
  ⟨by decide +kernel, ⟨rfl, by decide +kernel, rfl, rfl, .inr rfl, by decide +kernel⟩, ⟨rfl, fun h => h.1.1 rfl⟩,
    ⟨rfl, by decide +kernel, rfl, rfl, .inr rfl, by decide +kernel⟩, by decide +kernel⟩

theorem witness_AirLoopSecondHeatsTheHolder :
    ([40000] : List Int) ≠ [] ∧ online.ServiceLaw ∧ (online.loop .b3).fault = false ∧ 1200 < meanTenths [120100] ∧ meanTenths [120099] = 1200
      ∧ online.mode ≠ .manual ∧ byHand.ServiceLaw ∧ byHand.mode = .manual :=
  ⟨by decide, online_service, by decide +kernel, by decide +kernel, by decide +kernel, by decide +kernel,
    byHand_service, by decide +kernel⟩

/-! ### Trips and what holds in every state -/

theorem witness_BoilerTripInputsLatchAndLock :
    let shut := { online with trips := { online.trips with inputs := online.trips.inputs.set .ovp ⟨true, 0⟩ } }
    let disarmed := { online with trips := { online.trips with armed := false } }
    (online.TripLaw ∧ (online.trips.inputs.get .ovp).active = false ∧ online.trips.armed = true
        ∧ online.trips.latches.any = false ∧ online.trips.latches.get .ovp = false ∧ (online.runner .b1).state ≠ .idle
        ∧ online.steam.manifold = .open ∧ 0 < online.live.purgeGap ∧ online.steam.purge = none)
      ∧ (shut.TripLaw ∧ (shut.trips.inputs.get .ovp).active = true)
      ∧ (disarmed.TripLaw ∧ disarmed.trips.armed = false ∧ (disarmed.trips.inputs.get .loww).active = false)
      ∧ (latched resting).TripLaw ∧ (latched resting).trips.latches.get .ovp = true
      ∧ (latched resting).trips.latches.get .ovt = false ∧ resting.TripLaw ∧ resting.steam.manifold ≠ .open :=
  ⟨⟨tripOk_sound (by decide +kernel), by decide +kernel⟩, ⟨tripOk_sound (by decide +kernel), by decide +kernel⟩,
    ⟨tripOk_sound (by decide +kernel), by decide +kernel⟩, tripOk_sound (by decide +kernel), by decide +kernel,
    by decide +kernel, tripOk_sound (by decide +kernel), by decide +kernel⟩

theorem witness_SupplyTripInputsActAndClear :
    let active (i : TripInput) (s : Part) : Part :=
      { s with trips := { s.trips with inputs := s.trips.inputs.set i ⟨true, 0⟩ } }
    let waits := active .cond { online with comp := ⟨false, .stopped, .expired⟩ }
    (online.CompressorLaw ∧ online.boiler.state ≠ .manual
        ∧ (online.trips.inputs.get .tank).active = false ∧ (online.trips.inputs.get .cond).active = false)
      ∧ ((active .tank online).CompressorLaw ∧ ((active .tank online).trips.inputs.get .tank).active = true)
      ∧ waits.CompressorLaw ∧ (waits.trips.inputs.get .cond).active = true ∧ waits.comp.offTimer = .expired
      ∧ ({ waits with trips := online.trips } : Part).startWaits :=
  ⟨⟨compOk_sound (by decide +kernel), by decide +kernel⟩, ⟨compOk_sound (by decide +kernel), by decide +kernel⟩,
    compOk_sound (by decide +kernel), by decide +kernel, by decide +kernel,
    ⟨by decide +kernel, rfl, rfl, .inr rfl, by decide +kernel⟩⟩

/-- `online` with a command waiting meets every law that a step keeps, and its step answers a next state. -/
theorem witness_EveryStepKeepsTheLaws :
    online.PortLaw ∧ online.StoreLaw ∧ online.CauseLaw ∧ online.TripLaw ∧ online.ArmingLaw ∧ online.LowwLaw ∧ online.CompressorLaw
      ∧ online.DamperLaw
      ∧ online.BudgetLaw ∧ online.ServiceLaw ∧ online.steam.Law ∧ online.ValveLaw ∧ online.GrantLaw
      ∧ (online.HeatLaw ∧ heated.HeatLaw ∧ heated.ServiceLaw ∧ heated.steam.Law ∧ heated.ValveLaw
        ∧ (step ⟨heated, [.runPause (.bp .b3) []]⟩ = .next ⟨after (.runPause (.bp .b3) []) heated, []⟩)
        ∧ ((after (.runPause (.bp .b3) []) heated).load (.bay .b3)).request = 0)
      ∧ (∃ t, step ⟨online, [.meteringSecond]⟩ = .next t) ∧ ∃ t, step ⟨online, []⟩ = .next t :=
  ⟨fun p => portOk_sound (Port.all_of_list (p := fun p => portOk (online.port p)) (by decide +kernel) p),
    online_service.store, online_service.causes, tripOk_sound (by decide +kernel), online_arming, lowwOk_sound (by decide +kernel),
    compOk_sound (by decide +kernel),
    dampOk_sound (by decide +kernel), budgetOk_sound (by decide +kernel), online_service,
    manifoldOk_sound (by decide +kernel), valveOk_sound (by decide +kernel), grantOk_sound (by decide +kernel),
    ⟨heatOk_sound (by decide +kernel), heatOk_sound (by decide +kernel), serviceOk_sound (by decide +kernel),
      manifoldOk_sound (by decide +kernel), valveOk_sound (by decide +kernel), rfl, by decide +kernel⟩,
    ⟨_, rfl⟩, ⟨_, rfl⟩⟩

/-- A holder that leaves an OPEN manifold, one that leaves a STALLED one, the millisecond and the end of the purge that
follow, and a power-on reset. -/
theorem witness_EveryStepKeepsThePurge :
    let stalled := { online with
      steam := ⟨[.b2], .auto .b1, .stalled, some 5000, none, 1550⟩, boiler := { online.boiler with state := .heating } }
    let purging := after (.runPause (.bp .b1) []) online
    (stalled.ServiceLaw ∧ stalled.steam.Law ∧ stalled.ValveLaw ∧ stalled.GrantLaw)
      ∧ (purging.ServiceLaw ∧ purging.steam.Law ∧ purging.ValveLaw ∧ purging.TripLaw ∧ purging.GrantLaw)
      ∧ (online.steam.valveOpen .b1 = true ∧ purging.steam = ⟨[.b2], .none, .purge, none, some 1000, 1550⟩)
      ∧ (after (.runPause (.bp .b1) []) stalled).steam = ⟨[.b2], .none, .purge, none, some 1000, 1550⟩
      ∧ (State.tick ⟨purging, []⟩).part.steam.purge = some 999
      ∧ (after .purgeEnd purging).steam = ⟨[], .auto .b2, .open, some 15000, none, 1550⟩
      ∧ (after (.powerOnReset .falls) purging).steam.purge = none :=
  ⟨⟨serviceOk_sound (by decide +kernel), manifoldOk_sound (by decide +kernel), valveOk_sound (by decide +kernel),
    grantOk_sound (by decide +kernel)⟩, ⟨serviceOk_sound (by decide +kernel), manifoldOk_sound (by decide +kernel),
    valveOk_sound (by decide +kernel), tripOk_sound (by decide +kernel), grantOk_sound (by decide +kernel)⟩,
    by decide +kernel⟩

/-- A power-on reset and none, a timer of each kind running, and a hold, a slice and a sample that come due. -/
theorem witness_AnIdleMillisecondAdvancesTheTimers :
    let due := { online with
      air := ⟨[], [⟨.b3, 299999, 300⟩], .all false⟩, steam := { online.steam with slice := some 1 }
      clocks := { Clocks.reset with alloc := 999, vSamples := [230000] } }
    let t := (State.tick ⟨due, []⟩)
    (after (.powerOnReset .falls) online).pins.resetn = false
      ∧ ¬ (due.pins.resetn = false ∨ due.pins.supply = false ∨ due.started = false)
      ∧ t.pending = [.sliceExpiry, .holdExpiry [.b3], .allocatorSecond [230000, due.pins.vsense]] := by decide +kernel

/-- Each beginning and end of a power-on reset, from a state in which the reset changes everything. -/
theorem witness_PowerOnResetGivesTheResetValues :
    (online.mode = .online ∧ online.pins.supply = true)
      ∧ (after (.powerOnReset (.rises true)) online).mode = .offline
      ∧ (after (.powerOnReset .falls) online).pins.resetn = false
      ∧ (after (.powerOnReset .powersUp) online).pins.supply = false := by decide +kernel

end Sys2Proof.Tests
end

section
/-! The bay runners, second by second: the rules of the runner's second (R55, R56), and the second of a runner that is not
RUNNING. -/

namespace Sys2Proof.Machine

/-! ## A list without a current record -/

@[simp] theorem PerBay.set_get {α : Type} (v : PerBay α) (b : Bay) : v.set b (v.get b) = v := by cases b <;> rfl

@[simp] theorem Part.setList_list (s : Part) (b : Bay) : s.setList b (s.list b) = s := by
  have store : { s with store := s.store.set b (s.store.get b) } = s := by rw [PerBay.set_get]
  exact store

theorem mapCurrent_of_currentOf_eq_none (f : Record → Record) {rs : List Record} (noCurrent : currentOf rs = none) :
    mapCurrent f rs = rs := by
  induction rs with
  | nil => rfl
  | cons r rs ih =>
    cases phase : r.phase with
    | current w => simp [currentOf, phase] at noCurrent
    | pending | done =>
      have rest : mapCurrent f rs = rs := ih (by simpa [currentOf, phase] using noCurrent)
      simpa [mapCurrent, Record.isCurrent, phase] using rest

theorem Part.updateCurrent_of_current_eq_none {s : Part} {b : Bay} (f : Record → Record) (noCurrent : s.current b = none) :
    s.updateCurrent b f = s := by
  rw [Part.updateCurrent, mapCurrent_of_currentOf_eq_none f noCurrent, Part.setList_list]

/-! ## The runner's second -/

theorem exec_runnerSecond (b : Bay) (s : State) :
    exec (.runnerSecond b) s = .next { s with part := (s.part.runnerClock b).runnerTick b } := rfl

@[simp] theorem Part.runner_runnerClock (s : Part) (b c : Bay) : (s.runnerClock b).runner c = s.runner c := rfl

theorem Part.runnerTick_of_idle_or_held {s : Part} {b : Bay}
    (rests : (s.runner b).state = .idle ∨ (s.runner b).state = .held) : s.runnerTick b = s := by
  obtain idle | held := rests
  · simp [Part.runnerTick, idle]
  · simp [Part.runnerTick, held]

theorem Part.runnerTick_of_paused {s : Part} {b : Bay} (paused : (s.runner b).state = .paused) :
    s.runnerTick b = s.updateCurrent b fun r => { r with pausedS := min 65535 (r.pausedS + 1) } := by
  cases current : s.current b with
  | none => rw [Part.updateCurrent_of_current_eq_none _ current]; simp [Part.runnerTick, paused, current]
  | some _ => simp [Part.runnerTick, paused, current, secAdd, satAdd]

/-- Settles O21, by the two rules for the second of a runner that is not RUNNING. A PAUSED runner's list is written as a
map over its current record, which leaves a list that has none as it was. -/
theorem aRestingRunnerSecondCountsPausesAlone : Obligations.ARestingRunnerSecondCountsPausesAlone := by
  intro s b clock
  constructor
  · intro rests
    rw [exec_runnerSecond, Part.runnerTick_of_idle_or_held (s := s.part.runnerClock b) (by simpa using rests)]
    rfl
  · intro paused
    rw [exec_runnerSecond, Part.runnerTick_of_paused (s := s.part.runnerClock b) (by simpa using paused)]
    rfl

end Sys2Proof.Machine
end

section
/-! The Power Allocator's division (R82): who takes part, what is granted where the requests fit, and how many rounds
run where they do not. -/

namespace Sys2Proof.Machine

/-! ## The loads that take part -/

theorem LoadTable.takesPart_eq_false {t : LoadTable} {l : Load} :
    t.takesPart l = false ↔ (t.loads.get l).forced = true ∨ (t.loads.get l).request = 0 := by
  cases forced : (t.loads.get l).forced <;> simp [LoadTable.takesPart, forced]

/-- A load has one claim where it takes part, and none where it does not. -/
theorem LoadTable.claims_eq (t : LoadTable) :
    t.claims = (Load.list.filter t.takesPart).map fun l => ⟨l, (t.loads.get l).weight, (t.loads.get l).request⟩ := rfl

theorem LoadTable.total_claims (t : LoadTable) : Claim.total t.claims = t.demanded := by
  rw [LoadTable.claims_eq, Claim.total, List.map_map]
  rfl

/-- The claims read nothing of a load that takes no part: two tables with the same participants and the same entries for
them divide a headroom in the same way. -/
theorem LoadTable.claims_congr {t t' : LoadTable} (parts : ∀ l, t'.takesPart l = t.takesPart l)
    (entries : ∀ l, t.takesPart l = true → t'.loads.get l = t.loads.get l) : t'.claims = t.claims := by
  rw [LoadTable.claims_eq, LoadTable.claims_eq, List.filter_congr fun l _ => parts l]
  exact List.map_congr_left fun l m => by rw [entries l (List.mem_filter.mp m).2]

theorem LoadTable.claims_set_of_aside {t : LoadTable} {l : Load} {e : LoadEntry} (aside : t.takesPart l = false)
    (stays : e.forced = true ∨ e.request = 0) :
    ({ t with loads := t.loads.set l e } : LoadTable).claims = t.claims := by
  have others {m : Load} (other : m ≠ l) : (t.loads.set l e).get m = t.loads.get m := by simp [other]
  refine LoadTable.claims_congr (fun m => ?_) (fun m part => others ?_)
  · by_cases same : m = l
    · subst same
      rw [aside, LoadTable.takesPart_eq_false]
      simpa using stays
    · simp only [LoadTable.takesPart, others same]
  · rintro rfl
    simp [aside] at part

theorem LoadTable.grantOf_aside {t : LoadTable} {l : Load} (aside : t.takesPart l = false) (h : Nat) :
    grantOf (divide t.claims h).1 l = 0 := by
  obtain forced | idle := LoadTable.takesPart_eq_false.mp aside
  · exact LoadTable.grantOf_forced forced h
  · exact LoadTable.grantOf_idle idle h

@[simp] theorem LoadTable.allocate_grant (t : LoadTable) (h : Nat) (l : Load) :
    ((t.allocate h).loads.get l).grant = grantOf (divide t.claims h).1 l := by
  rw [LoadTable.allocate_entry]
  rfl

/-! ## Requests that fit -/

/-- Where every pair of a division gives its load `f` of that load, a load of the division is granted that. -/
theorem grantOf_eq_of_forall {g : List (Load × Nat)} {f : Load → Nat} {l : Load} (gives : ∀ x ∈ g, x.2 = f x.1)
    (among : ∃ x ∈ g, x.1 = l) : grantOf g l = f l := by
  unfold grantOf
  split
  · rename_i x found
    obtain rfl : x.1 = l := by simpa using List.find?_some found
    exact gives x (List.mem_of_find?_eq_some found)
  · rename_i missing
    obtain ⟨x, m, same⟩ := among
    exact absurd same (by simpa using List.find?_eq_none.mp missing x m)

theorem LoadTable.divide_of_fits {t : LoadTable} {h : Nat} (fits : t.demanded ≤ h) :
    divide t.claims h = ((Load.list.filter t.takesPart).map fun l => (l, (t.loads.get l).request), 0) := by
  rw [divide, if_pos (t.total_claims.trans_le fits), LoadTable.claims_eq, List.map_map]
  rfl

theorem LoadTable.grantOf_of_fits {t : LoadTable} {h : Nat} (fits : t.demanded ≤ h) (l : Load) :
    grantOf (divide t.claims h).1 l = if t.takesPart l = true then (t.loads.get l).request else 0 := by
  split
  · rename_i part
    rw [LoadTable.divide_of_fits fits]
    refine grantOf_eq_of_forall (f := fun l => (t.loads.get l).request) (fun x m => ?_)
      ⟨_, List.mem_map_of_mem (List.mem_filter.mpr ⟨Load.mem_list l, part⟩), rfl⟩
    obtain ⟨_, _, rfl⟩ := List.mem_map.mp m
    rfl
  · rename_i aside
    exact LoadTable.grantOf_aside (by simpa using aside) h

/-- Where all requests fit, the grants sum to the requests. -/
theorem LoadTable.sum_grantOf_of_fits {t : LoadTable} {h : Nat} (fits : t.demanded ≤ h) :
    (Load.list.map (grantOf (divide t.claims h).1)).sum = t.demanded := by
  rw [funext (LoadTable.grantOf_of_fits fits), List.sum_map_ite]
  simp [LoadTable.demanded]

theorem LoadTable.demanded_eq_zero {t : LoadTable} (aside : ∀ l, t.takesPart l = false) : t.demanded = 0 := by
  rw [LoadTable.demanded, List.filter_eq_nil_iff.mpr fun l _ => by simp [aside l]]
  rfl

/-! ## The rounds -/

theorem shareRounds_rounds_le (k : Nat) (u : List Claim) (h : Nat) : (shareRounds k u h).2 ≤ k := by
  induction k generalizing u h with
  | zero => simp [shareRounds]
  | succ k ih =>
    cases u with
    | nil => simp [shareRounds]
    | cons c cs =>
      simp only [shareRounds]
      split
      · simp
      · simpa using ih _ _

theorem shareRounds_rounds_pos (k : Nat) (c : Claim) (cs : List Claim) (h : Nat) :
    0 < (shareRounds (k + 1) (c :: cs) h).2 := by
  simp only [shareRounds]
  split <;> simp

/-- The requests above the headroom are shared in one to five rounds (R83). -/
theorem divide_rounds_of_scarce {u : List Claim} {h : Nat} (scarce : h < Claim.total u) :
    1 ≤ (divide u h).2 ∧ (divide u h).2 ≤ 5 := by
  rw [divide, if_neg (Nat.not_le.mpr scarce)]
  cases u with
  | nil => simp [Claim.total] at scarce
  | cons c cs => exact ⟨shareRounds_rounds_pos 4 c cs h, shareRounds_rounds_le 5 (c :: cs) h⟩

/-- Settles O40: a load set aside has no claim, and the division reads the claims alone; the rest is by whether the
claims' total fits the headroom. -/
theorem allocationSetsAsideAndFits : Obligations.AllocationSetsAsideAndFits := by
  intro t h after
  have fit (fits : t.demanded ≤ h) : after.rounds = 0 ∧ after.unallocated = h - t.demanded :=
    ⟨congrArg Prod.snd (LoadTable.divide_of_fits fits), congrArg (h - ·) (LoadTable.sum_grantOf_of_fits fits)⟩
  refine ⟨fun l aside => ⟨?_, fun e stays m other => ?_⟩, fun fits => ⟨(fit fits).1, (fit fits).2, fun l part => ?_⟩,
    fun aside => ?_, fun scarce => ?_⟩
  · rw [LoadTable.allocate_grant, LoadTable.grantOf_aside aside]
  · rw [LoadTable.allocate_entry, LoadTable.allocate_entry, LoadTable.claims_set_of_aside aside stays]
    simp [other]
  · rw [LoadTable.allocate_grant, LoadTable.grantOf_of_fits fits, if_pos part]
  · have nothing : t.demanded = 0 := LoadTable.demanded_eq_zero aside
    simpa [nothing] using fit (nothing ▸ h.zero_le)
  · exact divide_rounds_of_scarce (t.total_claims ▸ scarce)

end Sys2Proof.Machine
end

section
/-! The notice requests (R167 to R169): what each answers by its arguments, and the ATTN line that follows (R163). -/

namespace Sys2Proof.Machine

/-! ## The ATTN line -/

theorem Notice.attnLow_eq_false {n : Notice} : n.attnLow = false ↔ n.flags &&& n.enables = 0 := by
  simp [Notice.attnLow]

theorem Part.outputs_attn (s : Part) (p : Port) : s.outputs.attn.get p = !(s.notice p).attnLow := by
  cases p with
  | sp => rfl
  | bp b => cases b <;> rfl

/-- ATTN is high exactly while no flag of its port is enabled (R163). -/
theorem Part.outputs_attn_iff (s : Part) (p : Port) :
    s.outputs.attn.get p = true ↔ (s.notice p).flags &&& (s.notice p).enables = 0 := by
  rw [Part.outputs_attn, Bool.not_eq_true', Notice.attnLow_eq_false]

@[simp] theorem Part.notice_send (s : Part) (p q : Port) (r : Reply) : (s.send p r).notice q = s.notice q := rfl

/-- A port's ATTN follows its new notice sets at once, with the reply under way (R163). -/
theorem Part.attn_setNotice_send (s : Part) (p : Port) (n : Notice) (r : Reply) :
    ((s.setNotice p n).send p r).outputs.attn.get p = true ↔ n.flags &&& n.enables = 0 := by
  rw [Part.outputs_attn_iff, Part.notice_send, Part.notice_setNotice, if_pos rfl]

/-! ## A request at an idle port -/

theorem Request.refusal_of_both {r : Request} (both : r.access = .both) (p : Port) : r.refusal p = none := by
  cases p <;> simp [Request.refusal, both]

/-- A request that either kind of port takes is answered by its owner at once (R8, R9). -/
theorem State.run_request_idle {s : State} {p : Port} {r : Request} (args : List Byte) (both : r.access = .both)
    (idle : (s.part.port p).tx = none) :
    s.run (fun part => part.request p r args) = .next ⟨(s.part.own p r args).reply p r.code, s.pending⟩ := by
  rw [State.run_eq, Part.request_idle r args idle, Part.serve, Part.handle, Request.refusal_of_both both]

@[simp] theorem Part.own_noteRead (s : Part) (p : Port) (args : List Byte) :
    s.own p .noteRead args = s.noteRead p args := by cases p <;> rfl

@[simp] theorem Part.own_noteAck (s : Part) (p : Port) (args : List Byte) :
    s.own p .noteAck args = s.noteAck p args := by cases p <;> rfl

@[simp] theorem Part.own_noteEnable (s : Part) (p : Port) (args : List Byte) :
    s.own p .noteEnable args = s.noteEnable p args := by cases p <;> rfl

section
variable {s : State} {p : Port} {args : List Byte} {t : Part} {res : Result} {data : List Byte}

theorem exec_noteRead_of_answer (idle : (s.part.port p).tx = none) (answer : s.part.noteRead p args = (t, res, data)) :
    exec (.noteRead p args) s = .next ⟨t.send p ⟨0x38, res, data⟩, s.pending⟩ := by
  have run := State.run_request_idle (r := .noteRead) args rfl idle
  rwa [Part.own_noteRead, answer] at run

theorem exec_noteAck_of_answer (idle : (s.part.port p).tx = none) (answer : s.part.noteAck p args = (t, res, data)) :
    exec (.noteAck p args) s = .next ⟨t.send p ⟨0x39, res, data⟩, s.pending⟩ := by
  have run := State.run_request_idle (r := .noteAck) args rfl idle
  rwa [Part.own_noteAck, answer] at run

theorem exec_noteEnable_of_answer (idle : (s.part.port p).tx = none)
    (answer : s.part.noteEnable p args = (t, res, data)) :
    exec (.noteEnable p args) s = .next ⟨t.send p ⟨0x3A, res, data⟩, s.pending⟩ := by
  have run := State.run_request_idle (r := .noteEnable) args rfl idle
  rwa [Part.own_noteEnable, answer] at run

end

/-! ## The answers of the notice requests -/

theorem Part.noteRead_nil (s : Part) (p : Port) :
    s.noteRead p [] = (s, .ok, [noteMask (s.notice p).flags, noteMask (s.notice p).enables]) := rfl

theorem Part.noteRead_of_ne_nil {args : List Byte} (given : args ≠ []) (s : Part) (p : Port) :
    s.noteRead p args = s.refuse .args := if_pos given

theorem Part.noteAck_of_mask {mask : Byte} (defined : mask &&& 0xE0 = 0) (s : Part) (p : Port) :
    s.noteAck p [mask] =
      (s.setNotice p { s.notice p with flags := (s.notice p).flags &&& ~~~(mask.truncate 5) }, .ok,
        [noteMask (s.notice p).flags, noteMask ((s.notice p).flags &&& ~~~(mask.truncate 5)),
          noteMask (s.notice p).enables]) := if_neg (not_not_intro defined)

theorem Part.noteEnable_of_mask {mask : Byte} (defined : mask &&& 0xE0 = 0) (s : Part) (p : Port) :
    s.noteEnable p [mask] = (s.setNotice p { s.notice p with enables := mask.truncate 5 }, .ok,
      [noteMask (s.notice p).flags, noteMask (mask.truncate 5)]) := if_neg (not_not_intro defined)

/-- The arguments are no notice mask: their length is not 1, or they name an undefined position (R168, R169). -/
def noNoticeMask (args : List Byte) : Prop := args.length ≠ 1 ∨ ∃ x ∈ args, x &&& 0xE0 ≠ 0

/-- A single mask byte is none only where it names an undefined position. -/
theorem noNoticeMask_singleton {x : Byte} : noNoticeMask [x] ↔ x &&& 0xE0 ≠ 0 := by
  simp [noNoticeMask]

theorem Part.noteAck_of_noNoticeMask {args : List Byte} (spoilt : noNoticeMask args) (s : Part) (p : Port) :
    s.noteAck p args = s.refuse .args :=
  match args with
  | [] | _ :: _ :: _ => rfl
  | [_] => if_pos (noNoticeMask_singleton.mp spoilt)

theorem Part.noteEnable_of_noNoticeMask {args : List Byte} (spoilt : noNoticeMask args) (s : Part) (p : Port) :
    s.noteEnable p args = s.refuse .args :=
  match args with
  | [] | _ :: _ :: _ => rfl
  | [_] => if_pos (noNoticeMask_singleton.mp spoilt)

/-- Settles O27: at an idle port each notice request is answered at once, by its length and its mask, and a write of the
notice sets sets ATTN. -/
theorem noticeRequestsActOnTheirPort : Obligations.NoticeRequestsActOnTheirPort := by
  intro s p mask idle n m byte becomes
  refine ⟨?read, fun args given => ?readRefused, fun args spoilt => ⟨?ackRefused, ?enableRefused⟩,
    fun defined => ⟨⟨?ack, Part.attn_setNotice_send ..⟩, ⟨?enable, Part.attn_setNotice_send ..⟩⟩⟩
  case read => exact exec_noteRead_of_answer idle (s.part.noteRead_nil p)
  case readRefused => exact exec_noteRead_of_answer idle (Part.noteRead_of_ne_nil given s.part p)
  case ackRefused => exact exec_noteAck_of_answer idle (Part.noteAck_of_noNoticeMask spoilt s.part p)
  case enableRefused => exact exec_noteEnable_of_answer idle (Part.noteEnable_of_noNoticeMask spoilt s.part p)
  case ack => exact exec_noteAck_of_answer idle (Part.noteAck_of_mask defined s.part p)
  case enable => exact exec_noteEnable_of_answer idle (Part.noteEnable_of_mask defined s.part p)

end Sys2Proof.Machine
end

section
/-! The configuration and counter reads (R188, R190): what each answers by its view or its group, and what the clearing
read sets to 0. -/

namespace Sys2Proof.Machine

/-! ## A request of the service port alone -/

theorem Request.refusal_of_serviceOnly {r : Request} (service : r.access = .serviceOnly) : r.refusal .sp = none := by
  simp [Request.refusal, service]

/-- A request that the service port alone takes is answered there by its owner at once (R8, R9). -/
theorem State.run_request_service {s : State} {r : Request} (args : List Byte) (service : r.access = .serviceOnly)
    (idle : (s.part.port .sp).tx = none) :
    s.run (fun part => part.request .sp r args) = .next ⟨(s.part.own .sp r args).reply .sp r.code, s.pending⟩ := by
  rw [State.run_eq, Part.request_idle r args idle, Part.serve, Part.handle, Request.refusal_of_serviceOnly service]

section
variable {s : State} {args : List Byte} {t : Part} {res : Result} {data : List Byte}

theorem exec_cfgRead_of_answer (idle : (s.part.port .sp).tx = none) (answer : s.part.cfgRead args = (t, res, data)) :
    exec (.cfgRead .sp args) s = .next ⟨t.send .sp ⟨0x53, res, data⟩, s.pending⟩ := by
  have run := State.run_request_service (r := .cfgRead) args rfl idle
  rwa [Part.own, answer] at run

theorem exec_cntRead_of_answer (idle : (s.part.port .sp).tx = none)
    (answer : s.part.readCounters args false = (t, res, data)) :
    exec (.cntRead .sp args) s = .next ⟨t.send .sp ⟨0x54, res, data⟩, s.pending⟩ := by
  have run := State.run_request_service (r := .cntRead) args rfl idle
  rwa [Part.own, answer] at run

theorem exec_cntReadClear_of_answer (idle : (s.part.port .sp).tx = none)
    (answer : s.part.readCounters args true = (t, res, data)) :
    exec (.cntReadClear .sp args) s = .next ⟨t.send .sp ⟨0x55, res, data⟩, s.pending⟩ := by
  have run := State.run_request_service (r := .cntReadClear) args rfl idle
  rwa [Part.own, answer] at run

end

/-! ## Selectors of a view or a group -/

/-- The arguments select none of the views or groups 0 to `top`: their length is not 1, or the one byte is above `top`
(R188, R190). -/
def selectsNone (top : Nat) (args : List Byte) : Prop := ∀ x ∈ args, args.length = 1 → top < x.toNat

theorem selectsNone_singleton {top : Nat} {x : Byte} : selectsNone top [x] ↔ top < x.toNat := by
  simp [selectsNone]

theorem Byte.ne_of_le_of_lt {x y : Byte} {top : Nat} (within : y.toNat ≤ top) (above : top < x.toNat) : x ≠ y := by
  rintro rfl
  omega

theorem Bay.toNat_byteOf_number_le (b : Bay) : (byteOf (Bay.number b)).toNat ≤ 4 := by cases b <;> decide

theorem Bay.ofByte_of_four_lt {x : Byte} (above : 4 < x.toNat) : Bay.ofByte x = none :=
  List.find?_eq_none.mpr fun b _ => by simpa using (Byte.ne_of_le_of_lt (Bay.toNat_byteOf_number_le b) above).symm

/-! ## The views of the configuration (R188) -/

theorem Part.cfgRead_live_liveList (s : Part) :
    s.cfgRead [0] = (s, .ok, Param.liveList.flatMap fun q => le16 (s.live.get q)) := rfl

theorem Part.cfgRead_live_stagedList (s : Part) :
    s.cfgRead [1] = (s, .ok, Param.stagedList.flatMap fun q => le16 (s.live.get q)) := rfl

theorem Part.cfgRead_staged_liveList (s : Part) :
    s.cfgRead [2] = (s, .ok, Param.liveList.flatMap fun q => le16 (s.staged.get q)) := rfl

theorem Part.cfgRead_staged_stagedList (s : Part) :
    s.cfgRead [3] = (s, .ok, Param.stagedList.flatMap fun q => le16 (s.staged.get q)) := rfl

theorem Part.cfgRead_of_selectsNone {args : List Byte} (spoilt : selectsNone 3 args) (s : Part) :
    s.cfgRead args = s.refuse .args :=
  match args with
  | [] | _ :: _ :: _ => rfl
  | [x] => by
    have outside (y : Byte) (within : y.toNat ≤ 3) : x ≠ y :=
      Byte.ne_of_le_of_lt within (selectsNone_singleton.mp spoilt)
    rw [Part.cfgRead, if_neg (outside 0 (by decide)), if_neg (outside 1 (by decide)), if_neg (outside 2 (by decide)),
      if_neg (outside 3 (by decide))]

theorem length_flatMap_le16 (ns : List Nat) : (ns.flatMap le16).length = ns.length * 2 := by
  simp [List.length_flatMap, le16]

/-! ## The groups of counters (R189, R190) -/

theorem Counters.group_plant (c : Counters) :
    c.group 0 = some [c.plant.heaterWh, c.plant.starts, c.plant.runSeconds, c.plant.strokes, c.plant.boilerTrips,
      c.plant.supplyTrips, c.plant.mainsTrips] := rfl

theorem Counters.group_bay (c : Counters) (b : Bay) :
    c.group (byteOf (Bay.number b)) = some [(c.bays.get b).steamMg, (c.bays.get b).heaterWh, (c.bays.get b).complete,
      (c.bays.get b).short, (c.bays.get b).cut, (c.bays.get b).starved, (c.bays.get b).clipped] := by
  cases b <;> rfl

theorem Counters.group_ports (c : Counters) :
    c.group 5 = some (Port.list.map c.frameErrors.get ++ Port.list.map c.overruns.get) := rfl

theorem Counters.group_of_five_lt {g : Byte} (above : 5 < g.toNat) (c : Counters) : c.group g = none := by
  have outside (y : Byte) (within : y.toNat ≤ 5) : g ≠ y := Byte.ne_of_le_of_lt within above
  rw [Counters.group, if_neg (outside 0 (by decide)), if_neg (outside 5 (by decide)), Bay.ofByte_of_four_lt (by omega)]

theorem Counters.clear_plant (c : Counters) : c.clear 0 = { c with plant := ⟨0, 0, 0, 0, 0, 0, 0⟩ } := rfl

theorem Counters.clear_bay (c : Counters) (b : Bay) :
    c.clear (byteOf (Bay.number b)) = { c with bays := c.bays.set b ⟨0, 0, 0, 0, 0, 0, 0⟩ } := by
  cases b <;> rfl

theorem Counters.clear_ports (c : Counters) :
    c.clear 5 = { c with frameErrors := ⟨0, ⟨0, 0, 0, 0⟩⟩, overruns := ⟨0, ⟨0, 0, 0, 0⟩⟩ } := rfl

theorem length_flatMap_le32 (ns : List Count32) : (ns.flatMap fun n => le32 n.toNat).length = ns.length * 4 := by
  simp [List.length_flatMap, le32, le16]

theorem Part.readCounters_of_group {s : Part} {g : Byte} {xs : List Count32} (group : s.counters.group g = some xs)
    (clears : Bool) :
    s.readCounters [g] clears =
      (if clears then { s with counters := s.counters.clear g } else s, .ok, xs.flatMap fun x => le32 x.toNat) := by
  simp [Part.readCounters, group]

theorem Part.readCounters_of_selectsNone {args : List Byte} (spoilt : selectsNone 5 args) (s : Part) (clears : Bool) :
    s.readCounters args clears = s.refuse .args :=
  match args with
  | [] | _ :: _ :: _ => rfl
  | [_] => by simp [Part.readCounters, Counters.group_of_five_lt (selectsNone_singleton.mp spoilt)]

/-- CNT_READ of a group answers its counters, and changes none (R190). -/
theorem answers_cntRead_of_group {s : State} {g : Byte} {xs : List Count32} (idle : (s.part.port .sp).tx = none)
    (group : s.part.counters.group g = some xs) :
    Answers (.cntRead .sp [g]) s .sp ⟨0x54, .ok, xs.flatMap fun x => le32 x.toNat⟩ :=
  exec_cntRead_of_answer idle (Part.readCounters_of_group group false)

/-- CNT_READ_CLEAR of a group answers its counters as they were, and clears them (R190). -/
theorem exec_cntReadClear_of_group {s : State} {g : Byte} {xs : List Count32} {k : Counters}
    (idle : (s.part.port .sp).tx = none) (group : s.part.counters.group g = some xs)
    (cleared : s.part.counters.clear g = k) :
    exec (.cntReadClear .sp [g]) s =
      .next ⟨({ s.part with counters := k }).send .sp ⟨0x55, .ok, xs.flatMap fun x : Count32 => le32 x.toNat⟩,
        s.pending⟩ :=
  exec_cntReadClear_of_answer idle (cleared ▸ Part.readCounters_of_group group true)

/-- Settles O26: at an idle service port a configuration read is answered by its view, a counter read by its group, and
every other argument list is refused; the clearing read leaves the counters of its group at 0. -/
theorem configurationAndCounterReads : Obligations.ConfigurationAndCounterReads := by
  intro s b idle low high c x bytes plant bay ports cleared
  have view {v : Byte} {data : List Byte} (answer : s.part.cfgRead [v] = (s.part, .ok, data)) :
      Answers (.cfgRead .sp [v]) s .sp ⟨0x53, .ok, data⟩ := exec_cfgRead_of_answer idle answer
  refine ⟨view s.part.cfgRead_live_liveList, view s.part.cfgRead_live_stagedList,
    view s.part.cfgRead_staged_liveList, view s.part.cfgRead_staged_stagedList,
    length_flatMap_le16 _, length_flatMap_le16 _, fun args spoilt => ?viewRefused, ?lengths,
    answers_cntRead_of_group idle c.group_plant, answers_cntRead_of_group idle (c.group_bay b),
    answers_cntRead_of_group idle c.group_ports,
    exec_cntReadClear_of_group idle c.group_plant c.clear_plant,
    exec_cntReadClear_of_group idle (c.group_bay b) (c.clear_bay b),
    exec_cntReadClear_of_group idle c.group_ports c.clear_ports, fun args spoilt => ⟨?readRefused, ?clearRefused⟩⟩
  case viewRefused => exact exec_cfgRead_of_answer idle (Part.cfgRead_of_selectsNone spoilt s.part)
  case lengths => simp only [plant, bay, ports, bytes, length_flatMap_le32, List.length_cons, List.length_nil]
  case readRefused => exact exec_cntRead_of_answer idle (Part.readCounters_of_selectsNone spoilt s.part false)
  case clearRefused => exact exec_cntReadClear_of_answer idle (Part.readCounters_of_selectsNone spoilt s.part true)

end Sys2Proof.Machine
end
